-- ==== Sys2Proof/Word.lean ====
section
/-! DEFINITION. The words of the Halzet 2408: the widths that travel on its links. -/

namespace Sys2Proof

/-- A byte as it travels on a link (R187). -/
abbrev Byte := BitVec 8

/-- A frame number or tick number: a 32-bit count of house frames, modulo 2^32 (R1). -/
abbrev FrameNo := BitVec 32

/-- A station id, 0 to 31; 0 is the monitor id (R179). -/
abbrev StationId := BitVec 5

/-- A page of the delay memory, 0 to 65,535; ring order wraps (R98). -/
abbrev Page := BitVec 16

end Sys2Proof
end

