-- ==== Sys2Proof/Config.lean ====
section
/-! DEFINITION. The fixed quantities of the part (00_scope.md, 1.8), and the one free value: what two
rules of the spec say differently. -/

namespace Sys2Proof.Config

/-- Bytes in a page (R98). -/
def pageBytes : Nat := 65536
/-- Pages in the ring (R98). -/
def ringPages : Nat := 65536
/-- Entries of the cell directory (R86). -/
def directoryEntries : Nat := 8192
/-- Entries of the allocation list (R100). -/
def allocationEntries : Nat := 8192
/-- Pages the bad-page list holds (R108). -/
def badPageLimit : Nat := 32
/-- Largest payload length a header may carry (R79). -/
def maxPayload : Nat := 4194304
/-- Records the mark table holds (R32). -/
def markLimit : Nat := 32
/-- Frames a DUMP may span at most (R49). -/
def dumpSpanLimit : Nat := 2000
/-- Entries of the position history (R13). -/
def historyLimit : Nat := 8
/-- Entries of the pending session list (R66). -/
def sessionLimit : Nat := 4
/-- Ticks ahead that a session frame may name and still be timely (R65). -/
def sessionAhead : Nat := 250
/-- Entries of the roster (R148). -/
def rosterLimit : Nat := 15
/-- Frames the transmit queue holds (R140). -/
def queueLimit : Nat := 8
/-- Attempts at a frame before it is abandoned (R138). -/
def attemptLimit : Nat := 4
/-- Objections in a row that make a station receive-suspect (R145). -/
def suspectRun : Nat := 16
/-- Cells the bypass store holds (R125). -/
def bypassLimit : Nat := 2
/-- Largest value of a 16-bit counter, at which it stays (00_scope.md, 1.6.5). -/
def counterMax : Nat := 65535

/-- Vendor code (R188). -/
def vendorCode : BitVec 16 := 0x1C7
/-- Part code (R188). -/
def partCode : BitVec 16 := 0x2408
/-- Revision (R188). -/
def revision : Byte := 0x02
/-- The set of all lanes (00_scope.md, 1.6.4). -/
def allLanes : Byte := 0xFF

/-- Whether the station asks for a SEND-ABANDONED notice at the abandonment of a REPORT: R138 excepts a
NOTICE alone, and R175 says that an abandoned REPORT is lost and no notice is formed. Nothing sets either
aside, so the answer is free (notes/assumptions/34.md). -/
opaque abandonedReportNoticed : Bool

end Sys2Proof.Config
end

