-- ==== Sys2Proof/Syntax.lean ====
section
/-! DEFINITION. The commands of the station, one constructor for each row of
spec/opcode_table.json. The table gives its rows no fields: an operand is what the row's rule says
arrives with the event (notes/assumptions/1.md). -/

namespace Sys2Proof

/-- The levels of the five panel lines as sampled at a tick, `true` for active (R166). -/
structure PanelLevels where
  dump : Bool
  cover : Bool
  lock : Bool
  start : Bool
  stop : Bool
  deriving DecidableEq, Repr

/-- A cue frame as it stands on the line, from the arbitration field to the check (R129, R190).
`length` is the payload length the header declares. -/
structure LineFrame where
  priority : BitVec 3
  source : StationId
  kind : BitVec 5
  target : StationId
  length : BitVec 5
  payload : List Byte
  check : BitVec 16
  deriving DecidableEq, Repr

/-- The commands. -/
inductive Instr where
  /-- POWER_APPLIED (R177): whether the RESET line is asserted at that moment, and the straps,
  sampled if the start-up sequence begins at once. -/
  | powerApplied (lineAsserted : Bool) (straps : StationId)
  /-- RESET_ASSERTED (R177): `listed` is what a memory test in progress has listed so far (R111). -/
  | resetAsserted (listed : List Page)
  /-- RESET_RELEASED (R177): the straps as the sequence samples them (R179). -/
  | resetReleased (straps : StationId)
  /-- CONFIG_READ_COMPLETE (R181): the 48 bytes of the record in address order (R180). -/
  | configReadComplete (record : List Byte)
  /-- MEMORY_TEST_COMPLETE (R110): the failing pages the test found, in the order tested. -/
  | memoryTestComplete (failing : List Page)
  /-- REFERENCE_PULSE (R2, R3, R6): the house frame count, and the panel lines' levels should the
  pulse be a tick. -/
  | referencePulse (count : FrameNo) (levels : PanelLevels)
  /-- ABSENCE_TIMER_EXPIRY (R4): the panel lines' levels at the own tick it makes. -/
  | absenceTimerExpiry (levels : PanelLevels)
  /-- OWN_TICK_TIMER_EXPIRY (R5): the panel lines' levels at the own tick it makes. -/
  | ownTickTimerExpiry (levels : PanelLevels)
  /-- JOIN_LIMIT (R76). -/
  | joinLimit
  /-- ROSTER_SILENT (R150): the entry. -/
  | rosterSilent (id : StationId)
  /-- ROSTER_FREED (R150): the entry. -/
  | rosterFreed (id : StationId)
  /-- CELL_HEADER_ARRIVAL (R81): the 12 bytes of the header (R189). -/
  | cellHeaderArrival (header : List Byte)
  /-- CELL_PAYLOAD_BYTES (R88): bytes of payload in arrival order. -/
  | cellPayloadBytes (bytes : List Byte)
  /-- PAGE_WRITE_COMPLETE (R104): of the page write at the front of the write queue. -/
  | pageWriteComplete
  /-- READ_COMPLETE (R105): of the read in progress. -/
  | readComplete
  /-- CHECK_FAIL (R106): the position in the cell, from 1, of a page of the read in progress whose
  bytes have changed in storage. -/
  | checkFail (position : Nat)
  /-- LINE_TRACKING_FOUND (R130). -/
  | lineTrackingFound
  /-- FRAME_START (R131): the line is idle. -/
  | frameStart
  /-- ARBITRATION_LOST (R132). -/
  | arbitrationLost
  /-- ID_CLASH (R133). -/
  | idClash
  /-- FRAME_TEST (R134): the frame on the line as this station has read it. -/
  | frameTest (frame : LineFrame)
  /-- OBJECTION_SLOT_END (R135): whether another station drove the slot. The straps and the failing
  pages a memory test in progress has listed are read only by the BUS reset that a RESTART gives. -/
  | objectionSlotEnd (driven : Bool) (straps : StationId) (listed : List Page)
  /-- CELL_LEAVES_OUTPUT_LINK (R124). -/
  | cellLeavesOutputLink
  deriving DecidableEq, Repr

end Sys2Proof
end

