-- ==== Sys2Proof/Decode.lean ====
section
/-! DEFINITION. The command that a word spells by the bits of spec/opcode_table.json. The table
gives bits to none of its rows, so no word spells a command. -/

namespace Sys2Proof

/-- No row of the table gives bits: every word is answered with none. -/
def decodeTableWord (_nbits _w : Nat) : Option Instr := none

end Sys2Proof
end

