-- ==== Sys2Proof/Machine/State.lean ====
section
/-! DEFINITION. The state of the station, block by block, and what it is right after a POWER reset.
Every field's reset value is the spec's but the station id (notes/assumptions/4.md). -/

namespace Sys2Proof.Machine

/-! ### Program clock -/

/-- Reference state (section 2.1). -/
inductive RefState where
  | searching | locked | holdover
  deriving DecidableEq, Repr

/-- The program clock. A timer is stopped, or runs with the period in microseconds it was set for. -/
structure ProgramClock where
  /-- Tick number, or none before the first tick (R2, R8). -/
  tick : Option FrameNo
  ref : RefState
  /-- Holdover flag (R4, R6). -/
  holdover : Bool
  /-- Absence timer (R4). -/
  absence : Option Nat
  /-- Own tick timer (R5). -/
  own : Option Nat
  deriving DecidableEq, Repr

/-! ### Delay line -/

/-- Service state (R60). -/
inductive Service where
  | test | lineup | build | full | drain | join | bypass
  deriving DecidableEq, Repr

/-- Step of a selection (R26). -/
inductive Step where
  | live | advance | hold | dumpStep | drop | joinSkip
  deriving DecidableEq, Repr

/-- Entry of the position history (R13). -/
structure HistoryEntry where
  tick : FrameNo
  emit : FrameNo
  delay : BitVec 32
  removed : BitVec 32
  deriving DecidableEq, Repr

/-- Kind of a session frame (R66). -/
inductive SessionKind where
  | start | stop
  deriving DecidableEq, Repr

/-- Entry of the pending session list (R66). -/
structure SessionEntry where
  kind : SessionKind
  applyAt : FrameNo
  action : FrameNo
  origin : StationId
  late : Bool
  deriving DecidableEq, Repr

/-- Join record (R60, R74). -/
structure JoinRecord where
  entryTick : FrameNo
  noReference : Nat
  deriving DecidableEq, Repr

/-- The delay line: service state, output schedule, sessions and join record (R14, R60). -/
structure DelayLine where
  service : Service
  /-- Emit frame E (R9). -/
  emit : Option FrameNo
  /-- Delay D (R10). -/
  delay : BitVec 32
  /-- Source frame S (R11). -/
  source : Option FrameNo
  /-- Removed total (R12). -/
  removed : BitVec 32
  /-- Position history, oldest first (R13). -/
  history : List HistoryEntry
  /-- Pending session list (R66). -/
  sessions : List SessionEntry
  /-- Join record, present in JOIN only (R60). -/
  joining : Option JoinRecord
  deriving DecidableEq, Repr

/-! ### Mark table -/

/-- Kind of a mark (R30). -/
inductive MarkKind where
  | dump | cover | lock
  deriving DecidableEq, Repr

/-- Where a span ends: at its end frame, or while open, read as ending at its auto-close frame
(R30). -/
inductive MarkEnd where
  | closed (fin : FrameNo)
  | openUntil (autoClose : FrameNo)
  deriving DecidableEq, Repr

/-- Key of a mark: origin, sequence and orphan flag (R30). -/
structure MarkKey where
  origin : StationId
  seq : Byte
  orphan : Bool
  deriving DecidableEq, Repr

/-- Mark record (R30). The applied-at tick is none for a record parked before the first tick. -/
structure Mark where
  key : MarkKey
  kind : MarkKind
  lanes : Byte
  start : FrameNo
  fin : MarkEnd
  trimmed : Bool
  appliedAt : Option FrameNo
  deriving DecidableEq, Repr

/-- Mark counters (R59). -/
structure MarkCounters where
  applied : Nat
  refusedFull : Nat
  tooLate : Nat
  trimmed : Nat
  closesIgnored : Nat
  retractsLate : Nat
  gaps : Nat
  conflicts : Nat
  laneForced : Nat
  deriving DecidableEq, Repr

/-- The mark table and what is kept with it. -/
structure MarkUnit where
  /-- The records in table order (R32). -/
  table : List Mark
  cueCount : BitVec 16
  /-- Own next sequence (R35). -/
  nextSeq : Byte
  /-- Pending re-announce list (R58). -/
  reannounce : List MarkKey
  counters : MarkCounters
  deriving DecidableEq, Repr

/-! ### Sparse tables -/

/-- A table of which most places hold the same value: the places that differ, keys rising. -/
abbrev Sparse (α : Type) := List (Nat × α)

/-! ### Ingest -/

/-- State of a cell directory entry (R86). -/
inductive EntryState where
  | empty | writing | complete | damaged | freed
  deriving DecidableEq, Repr

/-- Cell directory entry (R86). -/
structure DirEntry where
  tag : Nat
  state : EntryState
  first : Page
  count : Nat
  length : Nat
  truncated : Bool
  short : Bool
  deriving DecidableEq, Repr

/-- The arriving cell whose payload is coming in (R88): its allocation, its stored length, the
stored bytes received, and those of them not yet entered in the write queue. -/
structure CurrentCell where
  frame : FrameNo
  first : Page
  count : Nat
  stored : Nat
  received : Nat
  gathered : List Byte
  deriving DecidableEq, Repr

/-- A page write in the write queue (R88, R104): the cell's identity, the page's position in the
cell from 1, its bytes, and whether it is the cell's last. -/
structure PageWrite where
  frame : FrameNo
  first : Page
  position : Nat
  bytes : List Byte
  last : Bool
  deriving DecidableEq, Repr

/-- Ingest counters (R97). -/
structure IngestCounters where
  stored : Nat
  late : Nat
  ahead : Nat
  dup : Nat
  wrongLane : Nat
  truncated : Nat
  short : Nat
  headerBad : Nat
  ringFull : Nat
  deriving DecidableEq, Repr

/-- Ingest and the cell directory. -/
structure Ingest where
  /-- The directory: the entries that are not EMPTY, by index (R86). -/
  directory : Sparse DirEntry
  current : Option CurrentCell
  writeQueue : List PageWrite
  /-- Ring-full run flag (R84). -/
  ringFullRun : Bool
  counters : IngestCounters
  deriving DecidableEq, Repr

/-! ### Delay memory -/

/-- Entry of the allocation list (R100). -/
structure Allocation where
  frame : FrameNo
  first : Page
  count : Nat
  deriving DecidableEq, Repr

/-- Kind of a memory fault (R109). -/
inductive FaultKind where
  | checkFail | mapFault | testFail
  deriving DecidableEq, Repr

/-- Fault record (R109). -/
structure FaultRecord where
  frame : FrameNo
  page : Page
  kind : FaultKind
  deriving DecidableEq, Repr

/-- Which frame a read is made for (R105). -/
inductive ReadOf where
  | emitFrame | sourceFrame
  deriving DecidableEq, Repr

/-- A read of the delay memory in progress (R105), with the TRUNCATED flag of the directory's
answer (R115). -/
structure ReadOp where
  of : ReadOf
  frame : FrameNo
  first : Page
  count : Nat
  length : Nat
  truncated : Bool
  deriving DecidableEq, Repr

/-- The contents of a page with a valid check word: the bytes, and the frame the check word was
formed under; the count is the bytes' and the page number is the place (R104). -/
structure PageImage where
  frame : FrameNo
  bytes : List Byte
  deriving DecidableEq, Repr

/-- Delay memory counters (R109). -/
structure MemoryCounters where
  pageFaults : Nat
  unlisted : Nat
  deriving DecidableEq, Repr

/-- The delay memory (R98, R100, R105, R108, R109). -/
structure DelayMemory where
  head : Page
  tail : Page
  free : Nat
  /-- Allocation list, oldest first (R100). -/
  alloc : List Allocation
  /-- Bad-page list, ascending (R108). -/
  bad : List Page
  fault : Option FaultRecord
  reading : Option ReadOp
  /-- The pages that hold a valid check word, by page number (R104). -/
  pages : Sparse PageImage
  counters : MemoryCounters
  deriving DecidableEq, Repr

/-! ### Output stage -/

/-- Selection record handed to the output stage (R26, R33). -/
structure SelectionRecord where
  tick : FrameNo
  service : Service
  emit : FrameNo
  step : Step
  /-- Dumped frames passed. -/
  passed : BitVec 32
  /-- Join-skip frames, for JOIN-SKIP only. -/
  joinSkip : Option Nat
  /-- The cover answer (R33). -/
  covered : Bool
  /-- The cover treatment in effect: BLANK when set, FLAG when clear. -/
  blank : Bool
  deriving DecidableEq, Repr

/-- Staging record (R114): the selection record being worked on, and the payload flags that its
work has given so far. -/
structure Staging where
  record : SelectionRecord
  missing : Bool
  damaged : Bool
  deriving DecidableEq, Repr

/-- Flags of an output cell (section 7.1). -/
structure CellFlags where
  hold : Bool
  missing : Bool
  damaged : Bool
  lateRead : Bool
  cover : Bool
  dumpEdit : Bool
  drainEdit : Bool
  joinEdit : Bool
  live : Bool
  bypass : Bool
  truncated : Bool
  deriving DecidableEq, Repr

/-- An output cell: its header fields and payload (R124). -/
structure OutputCell where
  emit : FrameNo
  source : FrameNo
  lane : Byte
  service : Service
  flags : CellFlags
  length : Nat
  check : BitVec 16
  payload : List Byte
  deriving DecidableEq, Repr

/-- A cell of the bypass store (R125). -/
structure BypassCell where
  frame : FrameNo
  lane : Byte
  /-- Payload length as the header declared it. -/
  declared : Nat
  /-- Stored length, after the cut at max cell pages (R80). -/
  stored : Nat
  payload : List Byte
  truncated : Bool
  complete : Bool
  ready : Bool
  deriving DecidableEq, Repr

/-- Output counters (R128). -/
structure OutputCounters where
  missing : Nat
  damaged : Nat
  lateRead : Nat
  holds : Nat
  drops : Nat
  joinSkips : Nat
  deriving DecidableEq, Repr

/-- The output stage. -/
structure OutputStage where
  /-- Staging buffer (R117). -/
  buffer : List Byte
  staging : Option Staging
  bypass : List BypassCell
  /-- Cells leaving or waiting on the output link, in the order sent (R124). -/
  link : List OutputCell
  counters : OutputCounters
  deriving DecidableEq, Repr

/-! ### Cue bus -/

/-- HELLO (R152, R190). Codes are as carried. -/
structure HelloMsg where
  station : Byte
  lane : Byte
  service : Byte
  cause : Byte
  restarts : Byte
  seen : Byte
  digest : BitVec 16
  configFlags : Byte
  vendor : BitVec 16
  part : BitVec 16
  revision : Byte
  deriving DecidableEq, Repr

/-- BEACON (R155, R190). The state code is as carried (R193). -/
structure BeaconMsg where
  tick : FrameNo
  emit : FrameNo
  delay : BitVec 16
  service : Byte
  removed : BitVec 32
  cueCount : BitVec 16
  digest : BitVec 16
  deriving DecidableEq, Repr

/-- MARK-OPEN (R190): the end is absent for an open mark. -/
structure MarkOpenMsg where
  origin : StationId
  seq : Byte
  kind : MarkKind
  orphan : Bool
  reannounced : Bool
  lanes : Byte
  start : FrameNo
  fin : Option FrameNo
  deriving DecidableEq, Repr

/-- NOTICE (R173, R190): the tick field carries the low 16 bits of a tick number. -/
structure NoticeMsg where
  code : Byte
  tick : BitVec 16
  frame : FrameNo
  detail : BitVec 16
  deriving DecidableEq, Repr

/-- What a cue frame says, by kind (R134, R190). -/
inductive CueMsg where
  | hello (m : HelloMsg)
  | beacon (m : BeaconMsg)
  | markOpen (m : MarkOpenMsg)
  | markClose (origin : StationId) (seq : Byte) (fin : FrameNo)
  | markRetract (origin : StationId) (seq : Byte)
  | sessionStart (applyAt : FrameNo)
  | sessionEnd (applyAt : FrameNo)
  | realign
  | restart
  | query (group : BitVec 4) (part : Bool)
  | report (body : List Byte)
  | notice (m : NoticeMsg)
  deriving DecidableEq, Repr

/-- A frame of the transmit queue (R140). `stamp` orders the queued frames by their acceptance,
which the capacity rule's "youngest" reads (R141). -/
structure TxFrame where
  msg : CueMsg
  target : StationId
  stamp : Nat
  deriving DecidableEq, Repr

/-- Line-tracking state (R130). -/
inductive Tracking where
  | seeking | tracking
  deriving DecidableEq, Repr

/-- The station's part in the frame now on the line: none; sending it; reading it after a lost
arbitration or a clash (R132, R133); or awaiting the end of its objection slot, having judged it
good or bad and objecting or not (R134, R135). -/
inductive BusActivity where
  | quiet
  | sending (frame : LineFrame)
  | reading
  | judged (frame : LineFrame) (good : Bool) (objecting : Bool)
  deriving DecidableEq, Repr

/-- Bus counters (R146). -/
structure BusCounters where
  sent : Nat
  objectedAttempts : Nat
  abandoned : Nat
  objectionsRaised : Nat
  queueDiscards : Nat
  idClashes : Nat
  sessionIgnored : Nat
  deriving DecidableEq, Repr

/-- The cue bus controller. -/
structure BusController where
  queue : List TxFrame
  attempts : Nat
  objectionRun : Nat
  suspect : Bool
  clashSeen : Bool
  helloOwed : Bool
  tracking : Tracking
  activity : BusActivity
  counters : BusCounters
  deriving DecidableEq, Repr

/-! ### Peer monitor -/

/-- Last beacon of a roster entry (R148). -/
structure LastBeacon where
  tick : FrameNo
  emit : FrameNo
  delay : BitVec 16
  service : Byte
  removed : BitVec 32
  cueCount : BitVec 16
  deriving DecidableEq, Repr

/-- Roster entry (R148). -/
structure Peer where
  id : StationId
  lane : Option Byte
  lastHeard : Option FrameNo
  beacon : Option LastBeacon
  digest : Option (BitVec 16)
  expected : Option Byte
  silent : Bool
  alignFault : Bool
  mismatch : Bool
  deriving DecidableEq, Repr

/-- Peer counters (R164). -/
structure PeerCounters where
  alignFaults : Nat
  staleBeacons : Nat
  deriving DecidableEq, Repr

/-- The peer monitor. -/
structure PeerMonitor where
  /-- The roster, kept in order of station id. -/
  roster : List Peer
  /-- Join reference (R159). -/
  reference : Option StationId
  /-- Join estimate (R160). -/
  estimate : Option FrameNo
  counters : PeerCounters
  deriving DecidableEq, Repr

/-! ### Panel and report unit -/

/-- Tally levels, `true` for on (section 10.2). -/
structure Tallies where
  ready : Bool
  dumpAvail : Bool
  coverAir : Bool
  align : Bool
  service : Bool
  deriving DecidableEq, Repr

/-- The panel and report unit. -/
structure PanelUnit where
  /-- Last levels (R166). -/
  last : Option PanelLevels
  /-- Open key of the COVER line (section 3.3). -/
  coverKey : Option MarkKey
  /-- Open key of the LOCK line (section 3.3). -/
  lockKey : Option MarkKey
  tallies : Tallies
  deriving DecidableEq, Repr

/-! ### Start-up controller -/

/-- Kind of a reset (R177). -/
inductive ResetKind where
  | power | pin | bus
  deriving DecidableEq, Repr

/-- Reset cause record (R178). -/
structure CauseRecord where
  last : ResetKind
  restarts : Nat
  seenPower : Bool
  seenPin : Bool
  seenBus : Bool
  deriving DecidableEq, Repr

/-- The sixteen settings, as read and clamped (R182). -/
structure Settings where
  rateCode : Nat
  /-- T -/
  target : Nat
  /-- G -/
  guard : Nat
  /-- R -/
  build : Nat
  /-- Rd -/
  drain : Nat
  /-- L -/
  dumpLength : Nat
  lookback : Nat
  tail : Nat
  /-- M -/
  maxCover : Nat
  /-- Mlock -/
  maxLock : Nat
  /-- B -/
  beacon : Nat
  cellPages : Nat
  lane : Nat
  coverLanes : Byte
  /-- Cover treatment: BLANK when set, FLAG when clear. -/
  blank : Bool
  autoJoin : Bool
  deriving DecidableEq, Repr

/-- The settings derived at the completion of start-up (R183, R184). -/
structure Derived where
  /-- T_eff -/
  target : Nat
  /-- G in effect -/
  guard : Nat
  /-- L_eff -/
  dumpLength : Nat
  digest : BitVec 16
  deriving DecidableEq, Repr

/-- Configuration flags (R181, R183). -/
structure ConfigFlags where
  default : Bool
  clamp : Bool
  targetClamped : Bool
  deriving DecidableEq, Repr

/-- Start-up phase (section 11). -/
inductive Phase where
  | held | reading | testing | done
  deriving DecidableEq, Repr

/-- The start-up controller. -/
structure StartUp where
  cause : CauseRecord
  id : StationId
  config : Option Settings
  derived : Option Derived
  flags : ConfigFlags
  /-- Test-result flag (R62). -/
  testResult : Bool
  phase : Phase
  deriving DecidableEq, Repr

end Sys2Proof.Machine

namespace Sys2Proof.Machine

/-- The state of the station, and the queue of the commands that are waiting. -/
structure State where
  clock : ProgramClock
  line : DelayLine
  marks : MarkUnit
  ingest : Ingest
  memory : DelayMemory
  output : OutputStage
  bus : BusController
  peers : PeerMonitor
  panel : PanelUnit
  startup : StartUp
  /-- The commands waiting, first in, first out (the model's own). -/
  pending : List Instr
  deriving DecidableEq, Repr

/-- Reasons the station faults: none. No rule of the spec stops the station at an event. -/
inductive Fault where
  deriving DecidableEq, Repr

/-- Reasons a command is refused. -/
inductive Refusal where
  /-- Raised by an arm of `exec` whose command has no meaning yet; no arm raises it. Safe. -/
  | notModelled (mnemonic : String)
  deriving DecidableEq, Repr

/-! ### Reset values of the blocks, the same for every kind of reset -/

/-- R8. -/
def ProgramClock.reset : ProgramClock :=
  { tick := none, ref := .searching, holdover := false, absence := none, own := none }

/-- R14, R60. -/
def DelayLine.reset : DelayLine :=
  { service := .test, emit := none, delay := 0, source := none, removed := 0, history := [],
    sessions := [], joining := none }

/-- R32, R34, R35, R58, R59. -/
def MarkUnit.reset : MarkUnit :=
  { table := [], cueCount := 0, nextSeq := 0, reannounce := [],
    counters := { applied := 0, refusedFull := 0, tooLate := 0, trimmed := 0, closesIgnored := 0,
                  retractsLate := 0, gaps := 0, conflicts := 0, laneForced := 0 } }

/-- R96. -/
def Ingest.reset : Ingest :=
  { directory := [], current := none, writeQueue := [], ringFullRun := false,
    counters := { stored := 0, late := 0, ahead := 0, dup := 0, wrongLane := 0, truncated := 0,
                  short := 0, headerBad := 0, ringFull := 0 } }

/-- R127. -/
def OutputStage.reset : OutputStage :=
  { buffer := [], staging := none, bypass := [], link := [],
    counters := { missing := 0, damaged := 0, lateRead := 0, holds := 0, drops := 0,
                  joinSkips := 0 } }

/-- R147. -/
def BusController.reset : BusController :=
  { queue := [], attempts := 0, objectionRun := 0, suspect := false, clashSeen := false,
    helloOwed := false, tracking := .seeking, activity := .quiet,
    counters := { sent := 0, objectedAttempts := 0, abandoned := 0, objectionsRaised := 0,
                  queueDiscards := 0, idClashes := 0, sessionIgnored := 0 } }

/-- R165. -/
def PeerMonitor.reset : PeerMonitor :=
  { roster := [], reference := none, estimate := none,
    counters := { alignFaults := 0, staleBeacons := 0 } }

/-- R166, section 10.2: every tally off but SERVICE, which is on. -/
def PanelUnit.reset : PanelUnit :=
  { last := none, coverKey := none, lockKey := none,
    tallies := { ready := false, dumpAvail := false, coverAir := false, align := false,
                 service := true } }

/-- R113, for a bad-page list and page contents that the reset's kind decides. -/
def DelayMemory.reset (bad : List Page) (pages : Sparse PageImage) : DelayMemory :=
  { head := 0, tail := 0, free := Config.ringPages - bad.length, alloc := [], bad := bad,
    fault := none, reading := none, pages := pages,
    counters := { pageFaults := 0, unlisted := 0 } }

/-- The machine right after a POWER reset with the RESET line released and every strap at 0. -/
def State.reset : State :=
  { clock := .reset
    line := .reset
    marks := .reset
    ingest := .reset
    memory := .reset [] []
    output := .reset
    bus := .reset
    peers := .reset
    panel := .reset
    startup :=
      { cause := { last := .power, restarts := 0, seenPower := true, seenPin := false,
                   seenBus := false }
        id := 0
        config := none
        derived := none
        flags := { default := false, clamp := false, targetClamped := false }
        testResult := true
        phase := .reading }
    pending := [] }

/-! ### Replacing one block -/

/-- The state with another program clock. -/
def State.setClock (s : State) (x : ProgramClock) : State := { s with clock := x }
/-- The state with another delay line. -/
def State.setLine (s : State) (x : DelayLine) : State := { s with line := x }
/-- The state with another mark table. -/
def State.setMarks (s : State) (x : MarkUnit) : State := { s with marks := x }
/-- The state with another ingest. -/
def State.setIngest (s : State) (x : Ingest) : State := { s with ingest := x }
/-- The state with another delay memory. -/
def State.setMemory (s : State) (x : DelayMemory) : State := { s with memory := x }
/-- The state with another output stage. -/
def State.setOutput (s : State) (x : OutputStage) : State := { s with output := x }
/-- The state with another cue bus controller. -/
def State.setBus (s : State) (x : BusController) : State := { s with bus := x }
/-- The state with another peer monitor. -/
def State.setPeers (s : State) (x : PeerMonitor) : State := { s with peers := x }
/-- The state with another panel unit. -/
def State.setPanel (s : State) (x : PanelUnit) : State := { s with panel := x }
/-- The state with another start-up controller. -/
def State.setStartup (s : State) (x : StartUp) : State := { s with startup := x }
/-- The state with another queue of commands. -/
def State.setPending (s : State) (x : List Instr) : State := { s with pending := x }

end Sys2Proof.Machine
end

