-- ==== Sys2Proof/Machine/Ops.lean ====
section
/-! DEFINITION. Operations that several blocks share: the order of
frame numbers, counters, sparse tables, the settings in
effect, codes, the cyclic check, and bytes. -/

namespace Sys2Proof.Machine

/-! ### Bytes in pairs and the order of frame numbers (R1, R187) -/

/-- Two bytes as one item, the first the more significant (R187). -/
def bytePair (hi lo : Byte) : BitVec 16 := hi ++ lo

/-- X is before Y when (Y - X) modulo 2^32 lies from 1 to 2^31 - 1 (R1). -/
def before (x y : FrameNo) : Bool :=
  decide (1 ≤ (y - x).toNat) && decide ((y - x).toNat ≤ 2147483647)

/-- X is at or before Y when it equals Y or is before it (R1). -/
def atOrBefore (x y : FrameNo) : Bool := x == y || before x y

/-- The earlier of two frames; when neither is before the other, the first, which is the model's choice
for two frames exactly 2^31 apart (R1; notes/assumptions/31.md). -/
def earlier (x y : FrameNo) : FrameNo := if before y x then y else x

/-- The later of two frames; when neither is before the other, the first, which is the model's choice
for two frames exactly 2^31 apart (R1; notes/assumptions/31.md). -/
def later (x y : FrameNo) : FrameNo := if before x y then y else x

/-! ### Counters -/

/-- A 16-bit counter increased by 1, staying at 65,535 (00_scope.md, 1.6.5). -/
def bump (n : Nat) : Nat := min (n + 1) Config.counterMax

/-- A 16-bit counter increased by a number, staying at 65,535 (00_scope.md, 1.6.5). -/
def bumpBy (n k : Nat) : Nat := min (n + k) Config.counterMax

/-! ### Sparse tables -/

/-- What a sparse table holds at a key. -/
def sparseGet {α : Type} : Sparse α → Nat → Option α
  | [], _ => none
  | (k, v) :: rest, i => if k = i then some v else sparseGet rest i

/-- A sparse table with a value put at a key, keys kept rising. -/
def sparseSet {α : Type} : Sparse α → Nat → α → Sparse α
  | [], i, x => [(i, x)]
  | (k, v) :: rest, i, x =>
    if i < k then (i, x) :: (k, v) :: rest
    else if i = k then (i, x) :: rest
    else (k, v) :: sparseSet rest i x

/-- A sparse table with nothing at a key. -/
def sparseErase {α : Type} : Sparse α → Nat → Sparse α
  | [], _ => []
  | (k, v) :: rest, i => if k = i then rest else (k, v) :: sparseErase rest i

/-- The canonical form of a sparse table: its keys strictly rise. -/
def sparseRising {α : Type} : Sparse α → Bool
  | [] => true
  | [_] => true
  | (k, _) :: (k', v') :: rest => decide (k < k') && sparseRising ((k', v') :: rest)

/-! ### Settings in effect -/

/-- The default of every setting (R182). -/
def defaultSettings : Settings :=
  { rateCode := 3, target := 600, guard := 4, build := 25, drain := 25, dumpLength := 250,
    lookback := 30, tail := 15, maxCover := 600, maxLock := 3600, beacon := 25, cellPages := 16,
    lane := 0, coverLanes := 0xFF, blank := false, autoJoin := true }

/-- The settings in effect; the defaults where there are none, which no rule reads
(notes/assumptions/19.md). -/
def State.cfg (s : State) : Settings := s.startup.config.getD defaultSettings

/-- The derived settings in effect; zeros where there are none, which no rule reads
(notes/assumptions/19.md). -/
def State.eff (s : State) : Derived :=
  s.startup.derived.getD { target := 0, guard := 0, dumpLength := 0, digest := 0 }

/-- The emit frame, or 0 when it is none, as a notice carries it (R173). -/
def State.emitOrZero (s : State) : FrameNo := s.line.emit.getD 0

/-- BUILD, FULL, DRAIN and JOIN (section 4). -/
def Service.delaying : Service → Bool
  | .build | .full | .drain | .join => true
  | .test | .lineup | .bypass => false

/-- LINEUP and the delaying states, in which the delay line makes selections (R13). -/
def Service.selects (x : Service) : Bool := decide (x = .lineup) || x.delaying

/-- BUILD, FULL and DRAIN, the states in which beacons are compared (R157). -/
def Service.inSession : Service → Bool
  | .build | .full | .drain => true
  | .test | .lineup | .join | .bypass => false

/-! ### Codes (R188) -/

/-- Service state code. -/
def Service.code : Service → Byte
  | .test => 0
  | .lineup => 1
  | .build => 2
  | .full => 3
  | .drain => 4
  | .join => 5
  | .bypass => 6

/-- The state in session that a beacon's state code carries: BUILD, FULL or DRAIN, or none for
every other code (R193). -/
def sessionOfCode (code : Byte) : Option Service :=
  if code = 2 then some .build else if code = 3 then some .full
  else if code = 4 then some .drain else none

/-- Mark kind code. -/
def MarkKind.code : MarkKind → Byte
  | .dump => 1
  | .cover => 2
  | .lock => 3

/-- The mark kind of a code (R193). -/
def markKindOfCode (code : Byte) : Option MarkKind :=
  if code = 1 then some .dump else if code = 2 then some .cover
  else if code = 3 then some .lock else none

/-- Last reset cause code. -/
def ResetKind.code : ResetKind → Byte
  | .power => 1
  | .pin => 2
  | .bus => 3

/-- Fault record kind code, 0 for no fault. -/
def faultKindCode : Option FaultRecord → Byte
  | none => 0
  | some f =>
    match f.kind with
    | .checkFail => 1
    | .mapFault => 2
    | .testFail => 3

/-! ### Bytes and bits (R187) -/

/-- The bits of an item, most significant first. -/
def bitsOf {w : Nat} (x : BitVec w) : List Bool := (List.range w).map (fun i => x.getMsbD i)

/-- The bits of bytes in the order they travel. -/
def bitsOfBytes (l : List Byte) : List Bool := l.flatMap bitsOf

/-- The two bytes of an item, most significant first. -/
def bytes16 (x : BitVec 16) : List Byte := [x.extractLsb' 8 8, x.extractLsb' 0 8]

/-- The four bytes of an item, most significant first. -/
def bytes32 (x : BitVec 32) : List Byte :=
  [x.extractLsb' 24 8, x.extractLsb' 16 8, x.extractLsb' 8 8, x.extractLsb' 0 8]

/-- Byte i of a layout; a byte that is not there reads as all 1s, as the links read (R180). -/
def byteAt (l : List Byte) (i : Nat) : Byte := l.getD i 0xFF

/-- The two-byte item at byte i. -/
def item16 (l : List Byte) (i : Nat) : BitVec 16 := byteAt l i ++ byteAt l (i + 1)

/-- The four-byte item at byte i. -/
def item32 (l : List Byte) (i : Nat) : BitVec 32 :=
  byteAt l i ++ (byteAt l (i + 1) ++ (byteAt l (i + 2) ++ byteAt l (i + 3)))

/-! ### The cyclic check (R192) -/

/-- One covered bit taken into the register. -/
def crcBit (reg : BitVec 16) (bit : Bool) : BitVec 16 :=
  if reg.msb != bit then (reg <<< 1) ^^^ 0x1021 else reg <<< 1

/-- The check over the covered bits in the order they travel. -/
def crc (bits : List Bool) : BitVec 16 := bits.foldl crcBit 0xFFFF

end Sys2Proof.Machine
end

