-- ==== Sys2Proof/Machine/Operands.lean ====
section
/-! DEFINITION. The layouts of what travels to and from the station (11_formats.md): the input cell
header, the configuration record, and the cue frames, read and formed. -/

namespace Sys2Proof.Machine

/-! ### Input cell header (R79, R189) -/

/-- The fields of an input cell header, and whether it passes its check. -/
structure CellHeader where
  frame : FrameNo
  lane : Nat
  length : Nat
  good : Bool
  deriving DecidableEq, Repr

/-- A header as it is read: its check matches, its length is at most 4,194,304 and every flag is
clear, or it counts as failing its check (R79). -/
def readCellHeader (h : List Byte) : CellHeader :=
  let length := (item32 h 6).toNat
  { frame := item32 h 0
    lane := (byteAt h 4).toNat
    length := length
    good := decide (crc (bitsOfBytes (h.take 10)) = item16 h 10)
      && decide (length ≤ Config.maxPayload) && decide (byteAt h 5 = 0) }

/-! ### Configuration record (R181, R182, R191) -/

/-- What the judging of a record settles: the settings and the two flags it may set. -/
structure Judgement where
  settings : Settings
  defaulted : Bool
  clamped : Bool
  deriving DecidableEq, Repr

/-- A field clamped into its range (R182). -/
def clampTo (lo hi v : Nat) : Nat := max lo (min v hi)

/-- The settings of a record with every field clamped into its range (R182, R191). -/
def clampedSettings (r : List Byte) : Settings :=
  { rateCode := clampTo 0 7 (byteAt r 5).toNat
    target := clampTo 2 8000 (item16 r 6).toNat
    guard := clampTo 2 60 (byteAt r 8).toNat
    build := clampTo 2 250 (byteAt r 9).toNat
    drain := clampTo 2 250 (byteAt r 10).toNat
    dumpLength := clampTo 1 2000 (item16 r 11).toNat
    lookback := clampTo 0 250 (byteAt r 13).toNat
    tail := clampTo 0 250 (byteAt r 14).toNat
    maxCover := clampTo 1 2000 (item16 r 15).toNat
    maxLock := clampTo 1 16000 (item16 r 17).toNat
    beacon := clampTo 8 250 (byteAt r 19).toNat
    cellPages := clampTo 1 64 (byteAt r 20).toNat
    lane := clampTo 0 7 (byteAt r 21).toNat
    coverLanes := byteAt r 22
    blank := decide (1 ≤ (byteAt r 23).toNat)
    autoJoin := decide (1 ≤ (byteAt r 24).toNat) }

/-- Some field of a record lies out of its range (R182, R191). -/
def recordOutOfRange (r : List Byte) : Bool :=
  let s := clampedSettings r
  decide (s.rateCode ≠ (byteAt r 5).toNat) || decide (s.target ≠ (item16 r 6).toNat)
    || decide (s.guard ≠ (byteAt r 8).toNat) || decide (s.build ≠ (byteAt r 9).toNat)
    || decide (s.drain ≠ (byteAt r 10).toNat) || decide (s.dumpLength ≠ (item16 r 11).toNat)
    || decide (s.lookback ≠ (byteAt r 13).toNat) || decide (s.tail ≠ (byteAt r 14).toNat)
    || decide (s.maxCover ≠ (item16 r 15).toNat) || decide (s.maxLock ≠ (item16 r 17).toNat)
    || decide (s.beacon ≠ (byteAt r 19).toNat) || decide (s.cellPages ≠ (byteAt r 20).toNat)
    || decide (s.lane ≠ (byteAt r 21).toNat) || decide (1 < (byteAt r 23).toNat)
    || decide (1 < (byteAt r 24).toNat)

/-- The record begins with its marker, has format version 1, and its check word matches: the first
three tests of R181. -/
def recordTrusted (r : List Byte) : Bool :=
  decide (r.take 4 = [0x48, 0x5A, 0x32, 0x38]) && decide (byteAt r 4 = 1)
    && decide (crc (bitsOfBytes (r.take 46)) = item16 r 46)

/-- The judging of a record (R181). -/
def judgeRecord (r : List Byte) : Judgement :=
  if recordTrusted r then
    { settings := clampedSettings r, defaulted := false, clamped := recordOutOfRange r }
  else { settings := defaultSettings, defaulted := true, clamped := false }

/-! ### Cue frames (R134, R190) -/

/-- The row of a kind in the table of R134: priority, payload bytes, and whether the frame names a
target. -/
structure KindRow where
  priority : BitVec 3
  length : BitVec 5
  targeted : Bool
  deriving DecidableEq, Repr

/-- The table of R134, by kind code. -/
def kindRow (code : BitVec 5) : Option KindRow :=
  match code.toNat with
  | 1 => some { priority := 3, length := 14, targeted := false }
  | 2 => some { priority := 4, length := 19, targeted := false }
  | 3 => some { priority := 2, length := 13, targeted := false }
  | 4 => some { priority := 2, length := 6, targeted := false }
  | 5 => some { priority := 2, length := 2, targeted := false }
  | 6 => some { priority := 1, length := 4, targeted := false }
  | 7 => some { priority := 1, length := 4, targeted := false }
  | 8 => some { priority := 0, length := 0, targeted := true }
  | 9 => some { priority := 0, length := 0, targeted := true }
  | 10 => some { priority := 5, length := 1, targeted := true }
  | 11 => some { priority := 5, length := 17, targeted := true }
  | 12 => some { priority := 6, length := 9, targeted := false }
  | _ => none

/-- Kind code of a message (R134). -/
def CueMsg.kind : CueMsg → BitVec 5
  | .hello _ => 1
  | .beacon _ => 2
  | .markOpen _ => 3
  | .markClose _ _ _ => 4
  | .markRetract _ _ => 5
  | .sessionStart _ => 6
  | .sessionEnd _ => 7
  | .realign => 8
  | .restart => 9
  | .query _ _ => 10
  | .report _ => 11
  | .notice _ => 12

/-- Priority number of a message; a lower number goes first (R132, R134). -/
def CueMsg.priority : CueMsg → Nat
  | .hello _ => 3
  | .beacon _ => 4
  | .markOpen _ => 2
  | .markClose _ _ _ => 2
  | .markRetract _ _ => 2
  | .sessionStart _ => 1
  | .sessionEnd _ => 1
  | .realign => 0
  | .restart => 0
  | .query _ _ => 5
  | .report _ => 5
  | .notice _ => 6

/-- The message is a BEACON. -/
def CueMsg.isBeacon : CueMsg → Bool
  | .beacon _ => true
  | _ => false

/-- A flag as a bit of a byte. -/
def flagBit (b : Bool) (i : Nat) : Byte := if b then (1 : Byte) <<< i else 0

/-- The QUERY byte, which a REPORT repeats: bits 0 to 3 group, bit 4 part, bits 5 to 7 zero. -/
def groupByte (group : BitVec 4) (part : Bool) : Byte := group.setWidth 8 ||| flagBit part 4

/-- The mark flags byte: bit 0 orphan, bit 1 re-announce, bit 2 end present, the rest 0 (R193). -/
def MarkOpenMsg.flagByte (m : MarkOpenMsg) : Byte :=
  flagBit m.orphan 0 ||| flagBit m.reannounced 1 ||| flagBit m.fin.isSome 2

/-- The payload of a message (R190). -/
def CueMsg.payload : CueMsg → List Byte
  | .hello m =>
    [m.station, m.lane, m.service, m.cause, m.restarts, m.seen] ++ bytes16 m.digest
      ++ [m.configFlags] ++ bytes16 m.vendor ++ bytes16 m.part ++ [m.revision]
  | .beacon m =>
    bytes32 m.tick ++ bytes32 m.emit ++ bytes16 m.delay ++ [m.service] ++ bytes32 m.removed
      ++ bytes16 m.cueCount ++ bytes16 m.digest
  | .markOpen m =>
    [m.origin.setWidth 8, m.seq, m.kind.code, m.flagByte, m.lanes] ++ bytes32 m.start
      ++ bytes32 (m.fin.getD 0)
  | .markClose origin seq fin => [origin.setWidth 8, seq] ++ bytes32 fin
  | .markRetract origin seq => [origin.setWidth 8, seq]
  | .sessionStart a => bytes32 a
  | .sessionEnd a => bytes32 a
  | .realign => []
  | .restart => []
  | .query group part => [groupByte group part]
  | .report body => body
  | .notice m => [m.code] ++ bytes16 m.tick ++ bytes32 m.frame ++ bytes16 m.detail

/-- The message that a payload carries under a kind code, as R190 lays it out and R193 reads it;
none for a code that is no kind, or a mark kind that is none of DUMP, COVER and LOCK. -/
def readMsg (code : BitVec 5) (p : List Byte) : Option CueMsg :=
  match code.toNat with
  | 1 => some (.hello
      { station := byteAt p 0, lane := byteAt p 1, service := byteAt p 2, cause := byteAt p 3,
        restarts := byteAt p 4, seen := byteAt p 5, digest := item16 p 6,
        configFlags := byteAt p 8, vendor := item16 p 9, part := item16 p 11,
        revision := byteAt p 13 })
  | 2 => some (.beacon
      { tick := item32 p 0, emit := item32 p 4, delay := item16 p 8, service := byteAt p 10,
        removed := item32 p 11, cueCount := item16 p 15, digest := item16 p 17 })
  | 3 => (markKindOfCode (byteAt p 2)).map fun kind => .markOpen
      { origin := (byteAt p 0).setWidth 5, seq := byteAt p 1, kind := kind,
        orphan := (byteAt p 3).getLsbD 0, reannounced := (byteAt p 3).getLsbD 1,
        lanes := byteAt p 4, start := item32 p 5,
        fin := if (byteAt p 3).getLsbD 2 then some (item32 p 9) else none }
  | 4 => some (.markClose ((byteAt p 0).setWidth 5) (byteAt p 1) (item32 p 2))
  | 5 => some (.markRetract ((byteAt p 0).setWidth 5) (byteAt p 1))
  | 6 => some (.sessionStart (item32 p 0))
  | 7 => some (.sessionEnd (item32 p 0))
  | 8 => some .realign
  | 9 => some .restart
  | 10 => some (.query ((byteAt p 0).setWidth 4) ((byteAt p 0).getLsbD 4))
  | 11 => some (.report p)
  | 12 => some (.notice
      { code := byteAt p 0, tick := item16 p 1, frame := item32 p 3, detail := item16 p 7 })
  | _ => none

/-- The bits a cue frame's check covers: the 23 header bits, then every payload bit (R192). -/
def LineFrame.covered (priority : BitVec 3) (source : StationId) (kind : BitVec 5)
    (target : StationId) (length : BitVec 5) (payload : List Byte) : List Bool :=
  bitsOf priority ++ bitsOf source ++ bitsOf kind ++ bitsOf target ++ bitsOf length
    ++ bitsOfBytes payload

/-- The frame that carries a message on the line, its check formed (R190, R192). -/
def lineFrame (source : StationId) (msg : CueMsg) (target : StationId) : LineFrame :=
  let priority := BitVec.ofNat 3 msg.priority
  let length := BitVec.ofNat 5 msg.payload.length
  { priority := priority
    source := source
    kind := msg.kind
    target := target
    length := length
    payload := msg.payload
    check := crc (LineFrame.covered priority source msg.kind target length msg.payload) }

/-- An origin byte that names a station which can form marks: 1 to 31 (R44). -/
def originInRange (b : Byte) : Bool := decide (1 ≤ b.toNat) && decide (b.toNat ≤ 31)

/-- The content tests of R134. -/
def contentGood (code : BitVec 5) (p : List Byte) : Bool :=
  match code.toNat with
  | 3 => originInRange (byteAt p 0) && (markKindOfCode (byteAt p 2)).isSome
      && !(decide (markKindOfCode (byteAt p 2) = some .dump) && !(byteAt p 3).getLsbD 2)
  | 4 => originInRange (byteAt p 0)
  | 5 => originInRange (byteAt p 0)
  | 10 => decide (((byteAt p 0).setWidth 4 : BitVec 4).toNat ≤ 4)
  | _ => true

/-- The tests of R134: check, source, kind and priority, length, target, content. -/
def frameGood (f : LineFrame) : Bool :=
  match kindRow f.kind with
  | none => false
  | some row =>
    decide (f.check
        = crc (LineFrame.covered f.priority f.source f.kind f.target f.length f.payload))
      && decide (f.source ≠ 0) && decide (f.priority = row.priority)
      && decide (f.length = row.length) && decide (f.payload.length = row.length.toNat)
      && (if row.targeted then decide (f.target ≠ 0) else decide (f.target = 0))
      && contentGood f.kind f.payload

end Sys2Proof.Machine
end

