-- ==== Sys2Proof/Machine/Flags.lean ====
section
/-! DEFINITION. The flags that travel on the links, and the conditions that the tally lines show
(R168 to R172, R188, R189). -/

namespace Sys2Proof.Machine

/-- Reset seen flags: bit 0 POWER, bit 1 PIN, bit 2 BUS (R188). -/
def CauseRecord.seenByte (c : CauseRecord) : Byte :=
  flagBit c.seenPower 0 ||| flagBit c.seenPin 1 ||| flagBit c.seenBus 2

/-- Configuration flags: bit 0 CONFIG-DEFAULT, bit 1 CONFIG-CLAMP, bit 2 T-CLAMPED (R188). -/
def ConfigFlags.toByte (f : ConfigFlags) : Byte :=
  flagBit f.default 0 ||| flagBit f.clamp 1 ||| flagBit f.targetClamped 2

/-- Bus flags: bit 0 receive-suspect, bit 1 clash-seen, bit 2 HELLO-owed (R188). -/
def BusController.flagByte (b : BusController) : Byte :=
  flagBit b.suspect 0 ||| flagBit b.clashSeen 1 ||| flagBit b.helloOwed 2

/-- Cover treatment and auto-join: bit 0 treatment, bit 1 auto-join (R188). -/
def Settings.modeByte (c : Settings) : Byte := flagBit c.blank 0 ||| flagBit c.autoJoin 1

/-- A flag as a bit of a two-byte item. -/
def flagBit16 (b : Bool) (i : Nat) : BitVec 16 := if b then (1 : BitVec 16) <<< i else 0

/-- The flags of the output cell header, bits 11 to 15 always 0 (R189). -/
def CellFlags.bits (f : CellFlags) : BitVec 16 :=
  flagBit16 f.hold 0 ||| flagBit16 f.missing 1 ||| flagBit16 f.damaged 2 ||| flagBit16 f.lateRead 3
    ||| flagBit16 f.cover 4 ||| flagBit16 f.dumpEdit 5 ||| flagBit16 f.drainEdit 6
    ||| flagBit16 f.joinEdit 7 ||| flagBit16 f.live 8 ||| flagBit16 f.bypass 9
    ||| flagBit16 f.truncated 10

/-- Every flag clear. -/
def CellFlags.none : CellFlags :=
  { hold := false, missing := false, damaged := false, lateRead := false, cover := false,
    dumpEdit := false, drainEdit := false, joinEdit := false, live := false, bypass := false,
    truncated := false }

/-- Bytes 0 to 15 of the output cell header, which its check covers (R189, R192). -/
def outputHeader (emit source : FrameNo) (lane : Byte) (service : Service) (flags : CellFlags)
    (length : Nat) : List Byte :=
  bytes32 emit ++ bytes32 source ++ [lane, service.code] ++ bytes16 flags.bits
    ++ bytes32 (BitVec.ofNat 32 length)

/-- An output cell, its header check formed as it is sent (R124, R192). -/
def outputCell (emit source : FrameNo) (lane : Byte) (service : Service) (flags : CellFlags)
    (payload : List Byte) : OutputCell :=
  { emit := emit, source := source, lane := lane, service := service, flags := flags,
    length := payload.length,
    check := crc (bitsOfBytes (outputHeader emit source lane service flags payload.length)),
    payload := payload }

/-! ### Tally conditions -/

/-- READY is on while the service state is FULL (R168). -/
def State.readyCondition (s : State) : Bool := decide (s.line.service = .full)

/-- DUMP-AVAIL is on in BUILD, FULL or DRAIN with D at least G + L_eff (R169). -/
def State.dumpAvailCondition (s : State) : Bool :=
  s.line.service.inSession && decide (s.eff.guard + s.eff.dumpLength ≤ s.line.delay.toNat)

/-- ALIGN is on while any roster entry has ALIGN-FAULT (R171). -/
def State.alignCondition (s : State) : Bool := s.peers.roster.any (·.alignFault)

/-- SERVICE is on while any condition of R172 holds. -/
def State.serviceCondition (s : State) : Bool :=
  decide (s.line.service = .test) || decide (s.line.service = .bypass) || s.clock.holdover
    || s.bus.clashSeen || s.bus.suspect || s.startup.flags.default

/-- The tally lines set at an event to the conditions they show; COVER-AIR is set with the
selection record (R170) and stands here. -/
def State.setTallies (s : State) : State :=
  s.setPanel { s.panel with tallies :=
    { ready := s.readyCondition
      dumpAvail := s.dumpAvailCondition
      coverAir := s.panel.tallies.coverAir
      align := s.alignCondition
      service := s.serviceCondition } }

/-- The COVER-AIR tally driven (R170). -/
def State.setCoverAir (on : Bool) (s : State) : State :=
  s.setPanel { s.panel with tallies := { s.panel.tallies with coverAir := on } }

end Sys2Proof.Machine
end

