-- ==== Sys2Proof/Machine/Queue.lean ====
section
/-! DEFINITION. The transmit queue: the capacity rule, what a frame's leaving does, notices, and the
serving of the re-announce list (R58, R140 to R142, R173). -/

namespace Sys2Proof.Machine

/-! ### The queue itself -/

/-- The controller is sending the head frame. -/
def BusActivity.isSending : BusActivity → Bool
  | .sending _ => true
  | .quiet | .reading | .judged _ _ _ => false

/-- The head frame is held: it is being sent, or an attempt at it has ended objected or clashed
(R140). -/
def BusController.headHeld (b : BusController) : Bool :=
  b.activity.isSending || decide (0 < b.attempts)

/-- The held head, if there is one. -/
def BusController.heldPart (b : BusController) : List TxFrame :=
  if b.headHeld then b.queue.take 1 else []

/-- The frames that are not held. -/
def BusController.freePart (b : BusController) : List TxFrame :=
  if b.headHeld then b.queue.drop 1 else b.queue

/-- The held head, if there is one, with other frames behind it. -/
def BusController.setFree (b : BusController) (l : List TxFrame) : BusController :=
  { b with queue := b.heldPart ++ l }

/-- A frame put behind the frames of its own priority and before those of a higher number (R140). -/
def insertByPriority (f : TxFrame) : List TxFrame → List TxFrame
  | [] => [f]
  | g :: rest =>
    if f.msg.priority < g.msg.priority then f :: g :: rest else g :: insertByPriority f rest

/-- A frame put before the frames of its own priority and behind those of a lower number (R140). -/
def insertOldest (f : TxFrame) : List TxFrame → List TxFrame
  | [] => [f]
  | g :: rest =>
    if g.msg.priority < f.msg.priority then g :: insertOldest f rest else f :: g :: rest

/-- A head no longer held stands in the order of the queue: behind the frames of lower priority
number accepted while it was held, and before the younger ones of its own (R140). -/
def requeueHead : List TxFrame → List TxFrame
  | [] => []
  | f :: rest => insertOldest f rest

/-- One more than every stamp in the queue: the order of the next acceptance. -/
def nextStamp (q : List TxFrame) : Nat := q.foldl (fun n g => max n g.stamp) 0 + 1

/-- The latest accepted of some frames. -/
def youngest : List TxFrame → Option TxFrame
  | [] => none
  | f :: rest =>
    match youngest rest with
    | none => some f
    | some g => if g.stamp < f.stamp then some f else some g

/-- The frame that the capacity rule would discard for one of a given priority: the youngest that is
not held and has a higher priority number (R141). -/
def BusController.discardFor (b : BusController) (priority : Nat) : Option TxFrame :=
  youngest (b.freePart.filter (fun g => decide (priority < g.msg.priority)))

/-- What the queue answers to an offer. -/
structure Offered where
  bus : BusController
  accepted : Bool
  discarded : Option TxFrame

/-- The capacity rule (R141), for a station that may transmit or not. -/
def BusController.offer (b : BusController) (mayTransmit : Bool) (msg : CueMsg)
    (target : StationId) : Offered :=
  let f : TxFrame := { msg := msg, target := target, stamp := nextStamp b.queue }
  if !mayTransmit then { bus := b, accepted := false, discarded := none }
  else if msg.isBeacon && b.freePart.any (·.msg.isBeacon) then
    { bus := b.setFree (b.freePart.map (fun g => if g.msg.isBeacon then f else g)),
      accepted := true, discarded := none }
  else if msg.isBeacon && b.heldPart.any (·.msg.isBeacon) then
    { bus := { b with counters :=
        { b.counters with queueDiscards := bump b.counters.queueDiscards } },
      accepted := false, discarded := none }
  else if b.queue.length < Config.queueLimit then
    { bus := b.setFree (insertByPriority f b.freePart), accepted := true, discarded := none }
  else
    match b.discardFor msg.priority with
    | none => { bus := b, accepted := false, discarded := none }
    | some g =>
      { bus := { b.setFree (insertByPriority f (b.freePart.erase g)) with counters :=
          { b.counters with queueDiscards := bump b.counters.queueDiscards } },
        accepted := true, discarded := some g }

/-- A station in TEST or with id 0 has every offer refused (R141, R143, R144). -/
def State.mayTransmit (s : State) : Bool :=
  decide (s.startup.id ≠ 0) && decide (s.line.service ≠ .test)

/-- The message is a HELLO. -/
def CueMsg.isHello : CueMsg → Bool
  | .hello _ => true
  | _ => false

/-- An offer to the queue, and the HELLO-owed flag set if a HELLO is discarded for it (R139). -/
def State.offerRaw (s : State) (msg : CueMsg) (target : StationId) :
    State × Bool × Option TxFrame :=
  let o := s.bus.offer s.mayTransmit msg target
  let owed := o.bus.helloOwed || (o.discarded.map (·.msg.isHello)).getD false
  (s.setBus { o.bus with helloOwed := owed }, o.accepted, o.discarded)

/-! ### Notices (R173) -/

/-- The notice with an event code, a tick, a frame and a detail; its tick field carries the low 16
bits of the tick number, or 0 when that is none (R190). -/
def noticeMsg (code : Byte) (tick : Option FrameNo) (frame : FrameNo) (detail : BitVec 16) : CueMsg :=
  .notice { code := code, tick := ((tick.getD 0).setWidth 16), frame := frame, detail := detail }

/-- A notice formed and offered at once; a refusal loses it (R173). A notice's priority number is
the highest, so none is ever discarded for it. -/
def State.notice (s : State) (code : Byte) (tick : Option FrameNo) (frame : FrameNo)
    (detail : BitVec 16) : State :=
  (s.offerRaw (noticeMsg code tick frame detail) 0).1

/-! ### The re-announce list (R58) -/

/-- The record of the table with a key. -/
def findMark (table : List Mark) (key : MarkKey) : Option Mark :=
  table.find? (fun m => decide (m.key = key))

/-- The greatest length of a mark's kind, which its auto-close frame is set by (R30). -/
def Settings.openSpan (c : Settings) : MarkKind → FrameNo
  | .dump => 0
  | .cover => BitVec.ofNat 32 c.maxCover
  | .lock => BitVec.ofNat 32 c.maxLock

/-- The re-announced MARK-OPEN of a record as it stands (R58). -/
def reannounceMsg (c : Settings) (m : Mark) : CueMsg :=
  .markOpen
    { origin := m.key.origin, seq := m.key.seq, kind := m.kind, orphan := m.key.orphan,
      reannounced := true, lanes := m.lanes,
      start := match m.fin with
        | .closed _ => m.start
        | .openUntil a => a - c.openSpan m.kind
      fin := match m.fin with
        | .closed e => some e
        | .openUntil _ => none }

/-- The queue would accept a frame of priority 2 (R58, R141). -/
def State.wouldAcceptMark (s : State) : Bool :=
  s.mayTransmit
    && (decide (s.bus.queue.length < Config.queueLimit) || (s.bus.discardFor 2).isSome)

/-- Keys taken from the front of the list while the queue would accept a frame for each (R58). -/
def serveKeys : List MarkKey → State → State
  | [], s => s.setMarks { s.marks with reannounce := [] }
  | k :: rest, s =>
    if s.wouldAcceptMark then
      match findMark s.marks.table k with
      | none => serveKeys rest s
      | some m => serveKeys rest (s.offerRaw (reannounceMsg s.cfg m) 0).1
    else s.setMarks { s.marks with reannounce := k :: rest }

/-- The pending re-announce list served, as at every event at which a frame leaves the queue (R58,
R142). -/
def State.serve (s : State) : State := serveKeys s.marks.reannounce s

/-! ### Own frames that leave the queue unsent -/

/-- The open keys without one that was opened by a MARK-OPEN now lost (R42). -/
def State.dropOpenKey (s : State) (key : MarkKey) : State :=
  s.setPanel { s.panel with
    coverKey := if s.panel.coverKey = some key then none else s.panel.coverKey
    lockKey := if s.panel.lockKey = some key then none else s.panel.lockKey }

/-- The message is the MARK-CLOSE of an origin and sequence. -/
def CueMsg.closesMark (origin : StationId) (seq : Byte) : CueMsg → Bool
  | .markClose o q _ => decide (o = origin) && decide (q = seq)
  | _ => false

/-- A queued MARK-CLOSE of an origin and sequence withdrawn; a held frame cannot be (R42, R142). -/
def State.withdrawClose (s : State) (origin : StationId) (seq : Byte) : State :=
  s.setBus (s.bus.setFree (s.bus.freePart.filter (fun g => !g.msg.closesMark origin seq)))

/-- What the mark table does at the loss of one of the station's own MARK-OPEN frames (R42). -/
def State.loseOwnOpen (s : State) (m : MarkOpenMsg) : State :=
  (s.dropOpenKey { origin := m.origin, seq := m.seq, orphan := m.orphan }).withdrawClose
    m.origin m.seq

/-- PRESS-REFUSED, with the line and the reason in its detail (R36, R71). -/
def State.pressRefused (s : State) (line reason : Byte) (frame : FrameNo) : State :=
  s.notice 0x01 s.clock.tick frame (bytePair line reason)

/-- The line code of a mark's kind (R36). -/
def MarkKind.lineCode : MarkKind → Byte
  | .dump => 1
  | .cover => 2
  | .lock => 3

/-- What the owner of a discarded frame does at the event (R42, R43, R72, R141). -/
def State.ownerOfDiscard (s : State) (msg : CueMsg) : State :=
  match msg with
  | .markOpen m =>
    if m.reannounced then s else (s.loseOwnOpen m).pressRefused m.kind.lineCode 0x04 m.start
  | .sessionStart a => s.pressRefused 0x04 0x04 a
  | .sessionEnd a => s.pressRefused 0x05 0x04 a
  | .hello _ | .beacon _ | .markClose _ _ _ | .markRetract _ _ | .realign | .restart | .query _ _
  | .report _ | .notice _ => s

/-- An offer to the queue, with what a discard for it brings: the owner is told, and the re-announce
list is served (R141, R142). The answer says whether the frame was accepted. -/
def State.offer (s : State) (msg : CueMsg) (target : StationId) : State × Bool :=
  match s.offerRaw msg target with
  | (s', ok, none) => (s', ok)
  | (s', ok, some g) => ((s'.ownerOfDiscard g.msg).serve, ok)

end Sys2Proof.Machine
end

