-- ==== Sys2Proof/Machine/Memory.lean ====
section
/-! DEFINITION. The cell directory as a table, and the delay memory: walks, allocation, retention and
freeing, page writes, and the compare of a read (04 sections 5.3 to 5.6, 05_delay_memory.md). -/

namespace Sys2Proof.Machine

/-! ### The cell directory (R86, R90) -/

/-- Index of a frame's entry. -/
def dirIndex (x : FrameNo) : Nat := x.toNat % Config.directoryEntries

/-- Tag of a frame's entry. -/
def dirTag (x : FrameNo) : Nat := x.toNat / Config.directoryEntries

/-- The EMPTY entry: its other fields are 0 and its flags clear (R86). -/
def emptyEntry : DirEntry :=
  { tag := 0, state := .empty, first := 0, count := 0, length := 0, truncated := false,
    short := false }

/-- The entry at an index; an index that is not listed holds the EMPTY entry. -/
def dirGet (d : Sparse DirEntry) (i : Nat) : DirEntry := (sparseGet d i).getD emptyEntry

/-- The directory with an entry written; an EMPTY entry is not listed. -/
def dirSet (d : Sparse DirEntry) (i : Nat) (e : DirEntry) : Sparse DirEntry :=
  if e.state = .empty then sparseErase d i else sparseSet d i e

/-- The directory's canonical form: indices rising and below 8192, and no EMPTY entry listed. -/
def directoryWf (d : Sparse DirEntry) : Bool :=
  sparseRising d && d.all (fun e => decide (e.1 < Config.directoryEntries)
    && decide (e.2.state ≠ .empty))

/-- Answer of a lookup (R90). -/
inductive Lookup where
  | hit (first : Page) (count : Nat) (length : Nat) (truncated : Bool)
  | writing | damaged | freed | empty | otherFrame
  deriving DecidableEq, Repr

/-- The lookup of a frame (R90). -/
def lookup (d : Sparse DirEntry) (x : FrameNo) : Lookup :=
  let e := dirGet d (dirIndex x)
  match e.state with
  | .empty => .empty
  | .writing => if e.tag = dirTag x then .writing else .otherFrame
  | .damaged => if e.tag = dirTag x then .damaged else .otherFrame
  | .freed => if e.tag = dirTag x then .freed else .otherFrame
  | .complete =>
    if e.tag = dirTag x then .hit e.first e.count e.length e.truncated else .otherFrame

/-- The entry at a cell's index describes that cell, by tag and first page (R93). -/
def describes (d : Sparse DirEntry) (frame : FrameNo) (first : Page) : Bool :=
  let e := dirGet d (dirIndex frame)
  decide (e.state ≠ .empty) && decide (e.tag = dirTag frame) && decide (e.first = first)

/-- The directory with the state of the entry that describes a cell changed; an entry that no longer
describes it is left as it stands (R93). -/
def changeEntry (d : Sparse DirEntry) (frame : FrameNo) (first : Page) (state : EntryState) :
    Sparse DirEntry :=
  if describes d frame first then
    dirSet d (dirIndex frame) { dirGet d (dirIndex frame) with state := state }
  else d

/-! ### The ring (R98, R99) -/

/-- The pages from a position in ring order, passing over listed pages, until a number of them is
taken; the fuel counts the positions looked at. -/
def walkFrom (bad : List Page) : Nat → Page → Nat → List Page
  | 0, _, _ => []
  | _ + 1, _, 0 => []
  | fuel + 1, p, n + 1 =>
    if p ∈ bad then walkFrom bad fuel (p + 1) (n + 1)
    else p :: walkFrom bad fuel (p + 1) n

/-- The pages of a cell (R98). -/
def pagesOf (bad : List Page) (first : Page) (count : Nat) : List Page :=
  walkFrom bad (count + bad.length) first count

/-- The page at a position of a cell, counted from 1 (R104). -/
def pageAt (bad : List Page) (first : Page) (count position : Nat) : Option Page :=
  if position = 0 then none else (pagesOf bad first count)[position - 1]?

/-- Ring positions from a page up to, not including, another. -/
def ringDistance (p q : Page) : Nat := (q - p).toNat

/-- Listed pages among the positions from a page up to, not including, another. -/
def badBetween (bad : List Page) (p q : Page) : Nat :=
  (bad.filter (fun b => decide (ringDistance p b < ringDistance p q))).length

/-- Causes of a refused allocation (R84, R99). -/
inductive Refused where
  | noPages | listFull | slotHeld
  deriving DecidableEq, Repr

/-- Detail code of a RING-FULL cause (R84). -/
def Refused.code : Refused → BitVec 16
  | .noPages => 1
  | .listFull => 2
  | .slotHeld => 3

/-- Why the delay memory would refuse a number of pages, or none (R99). -/
def DelayMemory.refusal (m : DelayMemory) (count : Nat) : Option Refused :=
  if Config.allocationEntries ≤ m.alloc.length then some .listFull
  else if m.free < count then some .noPages
  else none

/-- The first page of a grant: the first page at or after the head that is not listed (R99). -/
def DelayMemory.grantFirst (m : DelayMemory) : Page :=
  (walkFrom m.bad (1 + m.bad.length) m.head 1).headD m.head

/-- A grant of pages to a cell (R99). -/
def DelayMemory.grant (m : DelayMemory) (frame : FrameNo) (count : Nat) : DelayMemory :=
  let first := m.grantFirst
  { m with
    alloc := m.alloc ++ [{ frame := frame, first := first, count := count }]
    head := (pagesOf m.bad first count).getLastD m.head + 1
    tail := if m.alloc.isEmpty then first else m.tail
    free := m.free - count }

/-! ### Retention and freeing (R101, R102) -/

/-- The retention point: S, or E when S is none (R101). -/
def DelayLine.retention (l : DelayLine) : Option FrameNo :=
  match l.source with
  | some x => some x
  | none => l.emit

/-- A cell is in flight: it is the current cell with stored bytes to come, or the write queue holds a
page write of it (R101). -/
def Ingest.inFlight (g : Ingest) (frame : FrameNo) (first : Page) : Bool :=
  (match g.current with
    | some c => decide (c.frame = frame) && decide (c.first = first) && decide (c.received < c.stored)
    | none => false)
    || g.writeQueue.any (fun w => decide (w.frame = frame) && decide (w.first = first))

/-- A read of a cell is in progress (R101). -/
def DelayMemory.readingCell (m : DelayMemory) (frame : FrameNo) (first : Page) : Bool :=
  match m.reading with
  | some r => decide (r.frame = frame) && decide (r.first = first)
  | none => false

/-- A cell in the allocation list is needed (R101). -/
def State.needed (s : State) (a : Allocation) : Bool :=
  (match s.line.retention with
    | none => true
    | some p => atOrBefore p a.frame)
    || s.ingest.inFlight a.frame a.first || s.memory.readingCell a.frame a.first

/-- The cell at the front of the allocation list freed, with those behind it still listed (R102). -/
def State.freeFront (s : State) (a : Allocation) (rest : List Allocation) : State :=
  let tail := match rest with
    | [] => s.memory.head
    | b :: _ => b.first
  let passed := ringDistance s.memory.tail tail - badBetween s.memory.bad s.memory.tail tail
  (s.setIngest { s.ingest with
      directory := changeEntry s.ingest.directory a.frame a.first .freed }).setMemory
    { s.memory with alloc := rest, tail := tail, free := s.memory.free + passed }

/-- Freeing from the front until a cell is needed, over the cells still listed (R102). -/
def freeFrom : List Allocation → State → State
  | [], s => s
  | a :: rest, s => if s.needed a then s else freeFrom rest (s.freeFront a rest)

/-- Freeing tried, at one of the events of R102. -/
def State.tryFree (s : State) : State := freeFrom s.memory.alloc s

/-! ### Bad pages and the fault record (R106 to R109) -/

/-- A page put at its place in the ascending list, once. -/
def insertPage (p : Page) : List Page → List Page
  | [] => [p]
  | q :: rest =>
    if p.toNat < q.toNat then p :: q :: rest
    else if p = q then q :: rest
    else q :: insertPage p rest

/-- A page added to the bad-page list unless it holds 32 pages (R108). -/
def addBad (bad : List Page) (p : Page) : List Page :=
  if bad.length < Config.badPageLimit then insertPage p bad else bad

/-- The page could not be added: the list is full and the page is not on it (R106, R109). -/
def unlistedBy (bad : List Page) (p : Page) : Bool :=
  decide (Config.badPageLimit ≤ bad.length) && decide (p ∉ bad)

/-- A memory fault found while the station runs: the entry damaged, the fault record and the counter
written, the CELL-DAMAGED notice asked for, and the read ended with freeing tried (R102, R106,
R107). -/
def State.memoryFault (s : State) (frame : FrameNo) (first page : Page) (kind : FaultKind) : State :=
  let s1 := (s.setIngest { s.ingest with
      directory := changeEntry s.ingest.directory frame first .damaged }).setMemory
    { s.memory with
      reading := none
      fault := some { frame := frame, page := page, kind := kind }
      counters := { s.memory.counters with pageFaults := bump s.memory.counters.pageFaults } }
  (s1.notice 0x10 s.clock.tick frame page).tryFree

/-- CHECK-FAIL's own part: the page listed or counted unlisted, and its contents no longer under a
valid check word (R106). -/
def State.listFailedPage (s : State) (p : Page) : State :=
  let m := s.memory
  s.setMemory { m with
    bad := addBad m.bad p
    pages := sparseErase m.pages p.toNat
    counters := { m.counters with
      unlisted := if unlistedBy m.bad p then bump m.counters.unlisted else m.counters.unlisted } }

/-! ### Pages read and written (R104, R105) -/

/-- The bytes the page at a position of a cell holds: 65,536, or for the last the rest (R105). -/
def expectedCount (length count position : Nat) : Nat :=
  if position = count then length - Config.pageBytes * (count - 1) else Config.pageBytes

/-- A page compares equal under a frame and a count of bytes (R104, R105). -/
def pageCompares (pages : Sparse PageImage) (p : Page) (frame : FrameNo) (count : Nat) : Bool :=
  match sparseGet pages p.toNat with
  | some i => decide (i.frame = frame) && decide (i.bytes.length = count)
  | none => false

/-- The first position, of those from one on, whose page does not compare equal (R105). -/
def firstMismatch (pages : Sparse PageImage) (r : ReadOp) : List Page → Nat → Option (Nat × Page)
  | [], _ => none
  | p :: rest, i =>
    if pageCompares pages p r.frame (expectedCount r.length r.count i) then
      firstMismatch pages r rest (i + 1)
    else some (i, p)

/-- The bytes that pages hold, in order. -/
def bytesOfPages (pages : Sparse PageImage) (l : List Page) : List Byte :=
  l.flatMap (fun p => ((sparseGet pages p.toNat).map (·.bytes)).getD [])

/-- The pages of the read in progress. -/
def DelayMemory.readPages (m : DelayMemory) (r : ReadOp) : List Page := pagesOf m.bad r.first r.count

/-- The map check of a read (R105). -/
def mapCheck (alloc : List Allocation) (frame : FrameNo) (first : Page) (count : Nat) : Bool :=
  alloc.any (fun a => decide (a.first = first) && decide (a.frame = frame) && decide (a.count = count))

/-- A page with its bytes and check word stored (R104). -/
def storePage (pages : Sparse PageImage) (p : Page) (w : PageWrite) : Sparse PageImage :=
  sparseSet pages p.toNat { frame := w.frame, bytes := w.bytes }

/-- The pages after the write in progress is cut off: its page holds no valid check word (R104,
R112). -/
def cutWrite (m : DelayMemory) (queue : List PageWrite) : Sparse PageImage :=
  match queue with
  | [] => m.pages
  | w :: _ =>
    match pageAt m.bad w.first w.position w.position with
    | some p => sparseErase m.pages p.toNat
    | none => m.pages

/-- The pages' canonical form: page numbers rising and below 65,536. -/
def pagesWf (pages : Sparse PageImage) : Bool :=
  sparseRising pages && pages.all (fun e => decide (e.1 < Config.ringPages))

/-- The memory tables' canonical form: the directory's and the pages'. -/
def State.memoryWf (s : State) : Bool :=
  directoryWf s.ingest.directory && pagesWf s.memory.pages

end Sys2Proof.Machine
end

