-- ==== Sys2Proof/Machine/Marks.lean ====
section
/-! DEFINITION. The mark table: its order, the questions it answers, the application of mark frames,
orphaning and the building of the re-announce list (02_edit_marks.md). -/

namespace Sys2Proof.Machine

/-! ### Questions (R15, R31, R33) -/

/-- Where the span ends, an open one read as ending at its auto-close frame (R30). -/
def Mark.endFrame (m : Mark) : FrameNo :=
  match m.fin with
  | .closed e => e
  | .openUntil a => a

/-- The mark is open. -/
def Mark.isOpen (m : Mark) : Bool :=
  match m.fin with
  | .closed _ => false
  | .openUntil _ => true

/-- A frame lies in the mark's span. -/
def Mark.holds (m : Mark) (x : FrameNo) : Bool := atOrBefore m.start x && before x m.endFrame

/-- A frame is locked: it lies in the span of a LOCK (R15). -/
def locked (table : List Mark) (x : FrameNo) : Bool :=
  table.any (fun m => decide (m.kind = .lock) && m.holds x)

/-- A frame is dumped: it lies in the span of a DUMP and is not locked (R15). -/
def dumped (table : List Mark) (x : FrameNo) : Bool :=
  table.any (fun m => decide (m.kind = .dump) && m.holds x) && !locked table x

/-- A frame is covered for a lane class (R31). -/
def covered (table : List Mark) (lane : Nat) (x : FrameNo) : Bool :=
  table.any (fun m => decide (m.kind = .cover) && m.lanes.getLsbD lane && m.holds x)

/-! ### Table order (R32) -/

/-- LOCK before DUMP before COVER. -/
def MarkKind.rank : MarkKind → Nat
  | .lock => 0
  | .dump => 1
  | .cover => 2

/-- The order of records that share a start frame: kind, origin, sequence, orphan flag. -/
def Mark.tieRank (m : Mark) : Nat :=
  ((m.kind.rank * 32 + m.key.origin.toNat) * 256 + m.key.seq.toNat) * 2 + (if m.key.orphan then 1 else 0)

/-- A record stands before another in table order (R32). Of two whose starts lie exactly 2^31 apart
neither start is the earlier, and they stand as if they shared it (notes/assumptions/31.md). -/
def Mark.precedes (a b : Mark) : Bool :=
  before a.start b.start || (!before b.start a.start && decide (a.tieRank < b.tieRank))

/-- A record put at its place in the table order (R32). Of starts of which three or more go round the
ring so that each is before the next R1 gives no earliest, and that the record then goes before the first
one it precedes is the model's choice (notes/assumptions/39.md). -/
def insertMark (m : Mark) : List Mark → List Mark
  | [] => [m]
  | b :: rest => if m.precedes b then m :: b :: rest else b :: insertMark m rest

/-- The table without the record of a key. -/
def removeMark (table : List Mark) (key : MarkKey) : List Mark :=
  table.filter (fun x => !decide (x.key = key))

/-- The table with the record of a key changed: one that keeps its start stands where it stood, and one
whose start has changed is moved to its place in the table order (R32, R53; notes/assumptions/39.md). -/
def replaceMark (table : List Mark) (key : MarkKey) (m : Mark) : List Mark :=
  if table.any (fun x => decide (x.key = key) && decide (x.start = m.start)) then
    table.map (fun x => if x.key = key then m else x)
  else insertMark m (removeMark table key)

/-! ### State shorthands -/

/-- The state with another mark table and everything else of the unit kept. -/
def State.setTable (s : State) (t : List Mark) : State := s.setMarks { s.marks with table := t }

/-- The state with other mark counters. -/
def State.setMarkCounters (s : State) (c : MarkCounters) : State :=
  s.setMarks { s.marks with counters := c }

/-- The table cleared, and with it the re-announce list (R7, R24, R58, R68). -/
def State.clearMarks (s : State) : State :=
  s.setMarks { s.marks with table := [], reannounce := [] }

/-- The detail that names a mark: origin, with 80H for an orphan key, and sequence (R59). -/
def MarkKey.detail (k : MarkKey) : BitVec 16 :=
  bytePair (k.origin.setWidth 8 ||| flagBit k.orphan 7) k.seq

/-- A mark discarded or refused as TOO-LATE (R47, R50, R52). -/
def State.tooLate (s : State) (key : MarkKey) (start : FrameNo) : State :=
  (s.setMarkCounters { s.marks.counters with tooLate := bump s.marks.counters.tooLate }).notice
    0x03 s.clock.tick start key.detail

/-- The cue count increased for a received mark frame (R34). -/
def State.countCue (s : State) : State := s.setMarks { s.marks with cueCount := s.marks.cueCount + 1 }

/-! ### MARK-OPEN -/

/-- Key of the mark a MARK-OPEN names. -/
def MarkOpenMsg.key (o : MarkOpenMsg) : MarkKey :=
  { origin := o.origin, seq := o.seq, orphan := o.orphan }

/-- The gap check (R45), on a roster. The answer is the expected sequence where it differs. -/
def gapFound (roster : List Peer) (o : MarkOpenMsg) : Option Byte :=
  match roster.find? (fun p => decide (p.id = o.origin)) with
  | none => none
  | some p =>
    match p.expected with
    | none => none
    | some e => if e = o.seq then none else some e

/-- The roster after the gap check: the origin's expected sequence is one past the received (R45). -/
def expectAfter (roster : List Peer) (o : MarkOpenMsg) : List Peer :=
  roster.map (fun p => if p.id = o.origin then { p with expected := some (o.seq + 1) } else p)

/-- The gap check of a MARK-OPEN that is not a re-announcement (R45). -/
def State.gapCheck (s : State) (o : MarkOpenMsg) : State :=
  if o.reannounced then s
  else
    let s' := s.setPeers { s.peers with roster := expectAfter s.peers.roster o }
    match gapFound s.peers.roster o with
    | none => s'
    | some e =>
      (s'.setMarkCounters { s.marks.counters with gaps := bump s.marks.counters.gaps }).notice 0x05
        s.clock.tick (e.setWidth 32) (bytePair (o.origin.setWidth 8) o.seq)

/-- A duplicate's content differs from the held record (R46). -/
def conflicts (c : Settings) (held : Mark) (o : MarkOpenMsg) : Bool :=
  decide (held.kind ≠ o.kind)
    || (decide (held.kind = .cover) && decide (held.lanes ≠ o.lanes))
    || (match held.fin with
        | .openUntil a => decide (o.start ≠ a - c.openSpan held.kind)
        | .closed _ => !held.trimmed && decide (o.start ≠ held.start))
    || (match held.fin, o.fin with
        | .openUntil _, some _ => true
        | .openUntil _, none => false
        | .closed _, none => true
        | .closed e, some e' => decide (e ≠ e'))

/-- The lane set a record is held with (R31, R47). -/
def heldLanes (o : MarkOpenMsg) : Byte := if o.kind = .cover then o.lanes else Config.allLanes

/-- Step 2 forces the lane set (R47). -/
def laneForced (o : MarkOpenMsg) : Bool := decide (o.kind ≠ .cover) && decide (o.lanes ≠ Config.allLanes)

/-- The end of a closed mark after step 5, from the start after step 4; the clamp of a DUMP's end to
the current tick number is made for a live mark only (R49, R51). The earliest of three frames is taken
so that both limits hold also of frames too far apart for R1 to order all three
(notes/assumptions/31.md, 39.md). -/
def limitEnd (c : Settings) (kind : MarkKind) (start fin : FrameNo) (h : Option FrameNo) : FrameNo :=
  match kind with
  | .dump =>
    let longest := start + BitVec.ofNat 32 Config.dumpSpanLimit
    match h with
    | some t => earlier t (earlier longest (earlier t fin))
    | none => earlier longest fin
  | .cover => earlier (start + c.openSpan .cover) fin
  | .lock => earlier (start + c.openSpan .lock) fin

/-- The start after step 4: a start at or before E becomes E + 1 (R48). -/
def trimStart (emit : Option FrameNo) (start : FrameNo) : FrameNo :=
  match emit with
  | some e => if atOrBefore start e then e + 1 else start
  | none => start

/-- The record that steps 2, 4 and 5 form from a MARK-OPEN; `emit` and `h` are none where the trim
and the clamp are not made (R47 to R51). A DUMP with no end, which no station receives (R44), would hold
no frame (notes/assumptions/19.md). -/
def formRecord (c : Settings) (o : MarkOpenMsg) (emit h tick : Option FrameNo) : Mark :=
  let start := trimStart emit o.start
  { key := o.key, kind := o.kind, lanes := heldLanes o, start := start
    fin := match o.fin, o.kind with
      | some e, k => .closed (limitEnd c k start e h)
      | none, .dump => .closed start
      | none, k => .openUntil (o.start + c.openSpan k)
    trimmed := decide (start ≠ o.start)
    appliedAt := tick }

/-- Step 6 finds the span empty (R50). -/
def Mark.spanEmpty (m : Mark) : Bool := atOrBefore m.endFrame m.start

/-- Step 7, and the joining of the table (R50). -/
def State.admitMark (s : State) (m : Mark) (received : FrameNo) : State :=
  let c := s.marks.counters
  if Config.markLimit ≤ s.marks.table.length then
    (s.setMarkCounters { c with refusedFull := bump c.refusedFull }).notice 0x02 s.clock.tick received
      m.key.detail
  else
    let s' := (s.setTable (insertMark m s.marks.table)).setMarkCounters
      { c with applied := bump c.applied
               trimmed := if m.trimmed then bump c.trimmed else c.trimmed }
    if m.trimmed then s'.notice 0x04 s.clock.tick m.start m.key.detail else s'

/-- The application of a MARK-OPEN, live in a delaying state (R46 to R50) or parked in LINEUP
(R51). -/
def State.applyOpen (s : State) (o : MarkOpenMsg) (live : Bool) : State :=
  match findMark s.marks.table o.key with
  | some held =>
    if conflicts s.cfg held o then
      s.setMarkCounters { s.marks.counters with conflicts := bump s.marks.counters.conflicts }
    else s
  | none =>
    let s1 := if laneForced o then
        s.setMarkCounters { s.marks.counters with laneForced := bump s.marks.counters.laneForced }
      else s
    if (o.fin.map (fun e => atOrBefore e o.start)).getD false then s1.tooLate o.key o.start
    else
      let m := formRecord s.cfg o (if live then s.line.emit else none)
        (if live then s.clock.tick else none) s.clock.tick
      if m.spanEmpty && (live || !m.isOpen) then s1.tooLate o.key o.start
      else s1.admitMark m o.start

/-- A received MARK-OPEN (R34, R44). -/
def State.receiveOpen (s : State) (o : MarkOpenMsg) : State :=
  if s.line.service.selects then
    (s.countCue.gapCheck o).applyOpen o s.line.service.delaying
  else s

/-! ### MARK-CLOSE and MARK-RETRACT -/

/-- A MARK-CLOSE that finds no open COVER or LOCK with its key (R53, R55). -/
def State.closeIgnored (s : State) (key : MarkKey) (fin : FrameNo) : State :=
  (s.setMarkCounters
    { s.marks.counters with closesIgnored := bump s.marks.counters.closesIgnored }).notice 0x06
    s.clock.tick fin key.detail

/-- The end a close gives a mark: past the start and, when the mark is live, past the frames aired, and
limited to the auto-close frame (R53, R55); the bounds come before the end received where R1 does not
order them (notes/assumptions/31.md), and the latest of three that go round the ring is the model's
choice (39.md). -/
def closeEnd (start autoClose fin : FrameNo) (emit : Option FrameNo) : FrameNo :=
  let floor := match emit with
    | some e => later (start + 1) (e + 1)
    | none => start + 1
  earlier autoClose (later floor fin)

/-- A received MARK-CLOSE (R34, R53, R55). -/
def State.receiveClose (s : State) (origin : StationId) (seq : Byte) (fin : FrameNo) : State :=
  if s.line.service.selects then
    let s1 := s.countCue
    let key : MarkKey := { origin := origin, seq := seq, orphan := false }
    match findMark s.marks.table key with
    | none => s1.closeIgnored key fin
    | some m =>
      match m.fin with
      | .closed _ => s1.closeIgnored key fin
      | .openUntil a =>
        if m.kind = .dump then s1.closeIgnored key fin
        else
          let emit := if s.line.service.delaying then s.line.emit else none
          s1.setTable (replaceMark s.marks.table key
            { m with fin := .closed (closeEnd m.start a fin emit) })
  else s

/-- A MARK-RETRACT that finds no record with its key (R54, R55). -/
def State.retractLate (s : State) (key : MarkKey) : State :=
  (s.setMarkCounters
    { s.marks.counters with retractsLate := bump s.marks.counters.retractsLate }).notice 0x07
    s.clock.tick s.emitOrZero key.detail

/-- The end a retract gives a live mark: the later of its start and E + 1, and the start where they lie
exactly 2^31 apart (R54; notes/assumptions/31.md). -/
def retractEnd (start : FrameNo) (emit : Option FrameNo) : FrameNo :=
  match emit with
  | some e => later start (e + 1)
  | none => start

/-- A received MARK-RETRACT (R34, R54, R55). -/
def State.receiveRetract (s : State) (origin : StationId) (seq : Byte) : State :=
  if s.line.service.selects then
    let s1 := s.countCue
    let key : MarkKey := { origin := origin, seq := seq, orphan := false }
    match findMark s.marks.table key with
    | none => s1.retractLate key
    | some m =>
      let fin := retractEnd m.start s.line.emit
      if s.line.service.delaying && decide (fin ≠ m.start) then
        s1.setTable (replaceMark s.marks.table key { m with fin := .closed fin })
      else s1.setTable (removeMark s.marks.table key)
  else s

/-! ### Retirement and entry to JOIN -/

/-- The marks that stay at a tick: those whose span ends after E + 1 (R25). -/
def retire (table : List Mark) (e : FrameNo) : List Mark :=
  table.filter (fun m => !atOrBefore m.endFrame (e + 1))

/-- A parked record as it becomes live: a DUMP's end clamped, a start at or before E trimmed, the
applied-at tick set (R52). Of an end and a tick number exactly 2^31 apart neither is the earlier, and the
tick number stands (notes/assumptions/31.md). -/
def Mark.enliven (m : Mark) (emit : Option FrameNo) (tick : Option FrameNo) : Mark :=
  let start := trimStart emit m.start
  { m with
    start := start
    fin := match m.kind, m.fin, tick with
      | .dump, .closed e, some h => .closed (earlier h e)
      | _, f, _ => f
    trimmed := m.trimmed || decide (start ≠ m.start)
    appliedAt := tick }

/-- One parked record, in table order, at the entry to JOIN (R52). -/
def State.enlivenOne (s : State) (m : Mark) : State :=
  let live := m.enliven s.line.emit s.clock.tick
  if live.spanEmpty then (s.setTable (removeMark s.marks.table m.key)).tooLate m.key m.start
  else
    let s' := s.setTable (replaceMark s.marks.table m.key live)
    if live.start ≠ m.start then
      (s'.setMarkCounters { s.marks.counters with trimmed := bump s.marks.counters.trimmed }).notice
        0x04 s.clock.tick live.start m.key.detail
    else s'

/-- Every parked record made live, in table order (R52). -/
def State.enlivenMarks (s : State) : State := s.marks.table.foldl State.enlivenOne s

/-! ### Restarted origins -/

/-- Which of two records with one orphan key stays: the later start, or of equal starts the newly
orphaned one; the answer is true when the one already held leaves (R57). Of two starts exactly 2^31
apart neither is the earlier, and the one already held leaves, as of equal starts
(notes/assumptions/31.md). -/
def heldLeaves (held new : Mark) : Bool := !before new.start held.start

/-- One record whose origin has restarted gets its orphan flag, a clash of keys being settled, and is
moved to its place in the table order (R57; notes/assumptions/39.md). -/
def orphanOne (t : List Mark × Nat) (m : Mark) : List Mark × Nat :=
  let key : MarkKey := { m.key with orphan := true }
  let rest := removeMark t.1 m.key
  match findMark rest key with
  | none => (insertMark { m with key := key } rest, t.2)
  | some held =>
    if heldLeaves held m then (insertMark { m with key := key } (removeMark rest key), bump t.2)
    else (rest, bump t.2)

/-- The table, and the conflicts counter, after a HELLO from an origin (R57). -/
def orphanFrom (table : List Mark) (conflictCount : Nat) (x : StationId) : List Mark × Nat :=
  (table.filter (fun m => decide (m.key.origin = x) && !m.key.orphan)).foldl orphanOne
    (table, conflictCount)

/-- The orphaning at a HELLO from another station; the roster's part, the expected sequence made
absent, is taken with the HELLO's other roster fields (R57, R153). -/
def State.orphan (s : State) (x : StationId) : State :=
  let t := orphanFrom s.marks.table s.marks.counters.conflicts x
  s.setMarks { s.marks with table := t.1, counters := { s.marks.counters with conflicts := t.2 } }

/-- An applied-at tick is older than another; none stands before every tick
(notes/assumptions/20.md). -/
def olderApplied : Option FrameNo → Option FrameNo → Bool
  | none, some _ => true
  | some x, some y => before x y
  | _, none => false

/-- A record put before the records applied later, and behind those applied at its own tick, or at
one exactly 2^31 from it (R58; notes/assumptions/31.md). Of ticks of which three or more go round the ring
so that each is before the next R1 gives no oldest, and that the record then goes before the first one
applied later is the model's choice (notes/assumptions/39.md). -/
def insertByApplied (m : Mark) : List Mark → List Mark
  | [] => [m]
  | b :: rest => if olderApplied m.appliedAt b.appliedAt then m :: b :: rest
    else b :: insertByApplied m rest

/-- The re-announce list of a table: the station's own marks and every orphan, oldest applied-at
first, then in table order (R58). -/
def reannounceList (table : List Mark) (own : StationId) : List MarkKey :=
  ((table.filter (fun m => decide (m.key.origin = own) || m.key.orphan)).foldl
    (fun l m => insertByApplied m l) []).map (·.key)

/-- What a HELLO from a station does at the mark table in LINEUP or a delaying state (R57, R58). -/
def State.marksHello (s : State) (x : StationId) : State :=
  if s.line.service.selects then
    let s1 := if x = s.startup.id then s else s.orphan x
    if s.startup.id = 0 then s1
    else (s1.setMarks { s1.marks with
      reannounce := reannounceList s1.marks.table s.startup.id }).serve
  else s

end Sys2Proof.Machine
end

