-- ==== Sys2Proof/Machine/Schedule.lean ====
section
/-! DEFINITION. The delay line: the search for the next frame, the selection in every service state,
the transitions driven by delay, the position history, and the sessions (01 sections 2.3 to 2.5,
03_service_states_and_sessions.md). -/

namespace Sys2Proof.Machine

/-- The state with another service state. -/
def State.setService (s : State) (x : Service) : State := s.setLine { s.line with service := x }

/-- JOIN left: the join record is dropped and the join reference and estimate become none (R60,
R159). -/
def State.leaveJoin (s : State) : State :=
  (s.setLine { s.line with joining := none }).setPeers
    { s.peers with reference := none, estimate := none }

/-! ### The next frame (R16) -/

/-- The latest end among the DUMP spans that hold a frame. -/
def dumpEnd (table : List Mark) (c : FrameNo) : FrameNo :=
  (table.filter (fun m => decide (m.kind = .dump) && m.holds c)).foldl
    (fun e m => later e m.endFrame) c

/-- The LOCK starts after a frame and before another. -/
def lockStarts (table : List Mark) (c e : FrameNo) : List FrameNo :=
  (table.filter (fun m => decide (m.kind = .lock) && before c m.start && before m.start e)).map
    (·.start)

/-- Where the candidate moves while it is dumped: the latest end, or the start of the earliest LOCK
before it (R16). -/
def moveFrom (table : List Mark) (c : FrameNo) : FrameNo :=
  match lockStarts table c (dumpEnd table c) with
  | [] => dumpEnd table c
  | x :: rest => rest.foldl earlier x

/-- The search from a candidate; the fuel counts the moves (R16). -/
def searchFrom (table : List Mark) : Nat → FrameNo → FrameNo
  | 0, c => c
  | fuel + 1, c => if dumped table c then searchFrom table fuel (moveFrom table c) else c

/-- Next(x): the first frame after x that is not dumped, found in at most one move for each mark
(R16). -/
def nextFrame (table : List Mark) (x : FrameNo) : FrameNo := searchFrom table table.length (x + 1)

/-- The dumped frames among a number of frames from one on. -/
def countDumped (table : List Mark) : Nat → FrameNo → Nat
  | 0, _ => 0
  | n + 1, x => (if dumped table x then 1 else 0) + countDumped table n (x + 1)

/-! ### The selection (R19 to R23) -/

/-- What a selection decides: the emit frame, the step, the dumped frames passed, and the join-skip
frames. -/
structure Selection where
  emit : FrameNo
  step : Step
  passed : BitVec 32
  joinSkip : Option Nat
  deriving DecidableEq, Repr

/-- The emit frame repeated. -/
def holdSelection (e : FrameNo) : Selection := { emit := e, step := .hold, passed := 0, joinSkip := none }

/-- A step to Next(e), with the dumped frames passed over counted (R20). -/
def stepSelection (table : List Mark) (e : FrameNo) : Selection :=
  let c := nextFrame table e
  { emit := c, step := if c = e + 1 then .advance else .dumpStep, passed := c - e - 1,
    joinSkip := none }

/-- The LINEUP selection (R19). -/
def lineupSelection (h : FrameNo) : Selection :=
  { emit := h - 1, step := .live, passed := 0, joinSkip := none }

/-- The BUILD selection (R20). -/
def buildSelection (table : List Mark) (interval : Nat) (h e : FrameNo) : Selection :=
  if h.toNat % interval = 0 then holdSelection e else stepSelection table e

/-- The tick is a drop (R22). -/
def isDrop (table : List Mark) (interval : Nat) (h e : FrameNo) : Bool :=
  let c := nextFrame table e
  decide (h.toNat % interval = 0) && !locked table c && atOrBefore (nextFrame table c) (h - 1)

/-- The DRAIN selection (R22). -/
def drainSelection (table : List Mark) (interval : Nat) (h e : FrameNo) : Selection :=
  if isDrop table interval h e then
    let c := nextFrame table e
    let n := nextFrame table c
    { emit := n, step := .drop, passed := (c - e - 1) + (n - c - 1), joinSkip := none }
  else stepSelection table e

/-- The join target: the first frame at or after the estimate that is not dumped (R23). -/
def joinTarget (table : List Mark) (estimate : FrameNo) : FrameNo := nextFrame table (estimate - 1)

/-- A join skip to the target (R23). -/
def skipSelection (table : List Mark) (e t : FrameNo) : Selection :=
  let n := (t - e - 1).toNat
  let k := countDumped table n (e + 1)
  { emit := t, step := .joinSkip, passed := BitVec.ofNat 32 k, joinSkip := some (n - k) }

/-- The JOIN selection (R23). -/
def joinSelection (table : List Mark) (estimate : Option FrameNo) (e : FrameNo) : Selection :=
  match estimate with
  | none => stepSelection table e
  | some x =>
    let t := joinTarget table x
    if atOrBefore t e then holdSelection e
    else if before (nextFrame table e) t then skipSelection table e t
    else stepSelection table e

/-- The selection at tick H by the rule of the state in force; E was none only before a LINEUP tick,
which does not read it (notes/assumptions/19.md). -/
def State.select (s : State) (h : FrameNo) : Selection :=
  let e := s.line.emit.getD (h - 2)
  match s.line.service with
  | .build => buildSelection s.marks.table s.cfg.build h e
  | .full => stepSelection s.marks.table e
  | .drain => drainSelection s.marks.table s.cfg.drain h e
  | .join => joinSelection s.marks.table s.peers.estimate e
  | .lineup | .test | .bypass => lineupSelection h

/-- The schedule after a selection: E, D recomputed, and the removed total (R9, R10, R12). -/
def State.applySelection (s : State) (h : FrameNo) (x : Selection) : State :=
  s.setLine { s.line with
    emit := some x.emit, delay := h - x.emit, removed := s.line.removed + x.passed }

/-- The cover answer for a selected frame (R33). -/
def State.coverAnswer (s : State) (x : FrameNo) : Bool :=
  s.line.service.delaying && covered s.marks.table s.cfg.lane x

/-! ### Transitions, retirement, history (R13, R24, R25) -/

/-- The transitions driven by delay (R24). -/
def State.delayTransition (s : State) : State :=
  match s.line.service with
  | .build => if s.line.delay.toNat = s.eff.target then s.setService .full else s
  | .full => if s.line.delay.toNat < s.eff.target then s.setService .build else s
  | .drain => if s.line.delay = 1 then (s.setService .lineup).clearMarks else s
  | .test | .lineup | .join | .bypass => s

/-- The retirement of marks in the delaying states (R25). -/
def State.retireMarks (s : State) : State :=
  match s.line.emit with
  | some e => if s.line.service.delaying then s.setTable (retire s.marks.table e) else s
  | none => s

/-- An entry added to the position history, the oldest beyond 8 discarded (R13). -/
def addHistory (l : List HistoryEntry) (x : HistoryEntry) : List HistoryEntry :=
  (l ++ [x]).drop (l.length + 1 - Config.historyLimit)

/-- The history entry of a tick (R13). -/
def State.recordHistory (s : State) (h : FrameNo) : State :=
  let x : HistoryEntry :=
    { tick := h, emit := s.emitOrZero, delay := s.line.delay, removed := s.line.removed }
  s.setLine { s.line with history := addHistory s.line.history x }

/-- The entry of the position history for a tick (R13). -/
def historyAt (l : List HistoryEntry) (h : FrameNo) : Option HistoryEntry :=
  l.find? (fun x => decide (x.tick = h))

/-! ### Sessions (R65 to R70) -/

/-- A session frame or REALIGN refused or ignored (R146). -/
def State.sessionIgnored (s : State) : State :=
  s.setBus { s.bus with counters :=
    { s.bus.counters with sessionIgnored := bump s.bus.counters.sessionIgnored } }

/-- An entry put in order of action tick, behind those of its own action tick (R66), and behind one
exactly 2^31 from it (notes/assumptions/31.md). -/
def insertSession (x : SessionEntry) : List SessionEntry → List SessionEntry
  | [] => [x]
  | y :: rest => if before x.action y.action then x :: y :: rest else y :: insertSession x rest

/-- A taken frame goes to the pending session list, unless it is a duplicate or the list is full
(R66). -/
def State.addSession (s : State) (x : SessionEntry) : State :=
  if s.line.sessions.any (fun y => decide (y.kind = x.kind) && decide (y.applyAt = x.applyAt)) then s
  else if Config.sessionLimit ≤ s.line.sessions.length then s.sessionIgnored
  else s.setLine { s.line with sessions := insertSession x s.line.sessions }

/-- A received SESSION-START or SESSION-END (R65). An apply-at tick exactly 2^31 from the current tick
number fits no row of R65's table, and the frame has then no effect (notes/assumptions/31.md). -/
def State.receiveSession (s : State) (kind : SessionKind) (a : FrameNo) (origin : StationId) : State :=
  if s.line.service = .test then s
  else
    match s.clock.tick with
    | none => s.sessionIgnored
    | some h =>
      if s.line.service = .bypass then s.sessionIgnored
      else if before h a then
        if (a - h).toNat ≤ Config.sessionAhead then
          s.addSession { kind := kind, applyAt := a, action := a, origin := origin, late := false }
        else s.sessionIgnored
      else if atOrBefore a h then
        s.addSession { kind := kind, applyAt := a, action := h + 1, origin := origin, late := true }
      else s

/-- Kind code of a session frame (R134). -/
def SessionKind.code : SessionKind → Byte
  | .start => 0x06
  | .stop => 0x07

/-- The SESSION-LATE notice of a late entry acted on (R67). -/
def State.sessionLate (s : State) (h : FrameNo) (x : SessionEntry) : State :=
  if x.late then
    s.notice 0x14 (some h) x.applyAt (bytePair x.kind.code (x.origin.setWidth 8))
  else s

/-- A SESSION-START acted on in LINEUP (R68). -/
def State.beginSession (s : State) : State :=
  let s1 := (s.setService .build).clearMarks
  (s1.setLine { s1.line with removed := 0 }).setMarks { s1.marks with cueCount := 0 }

/-- A SESSION-START acted on in DRAIN (R69). -/
def State.resumeSession (s : State) : State :=
  s.setService (if s.line.delay.toNat = s.eff.target then .full else .build)

/-- An entry taken at its action tick, tested against the state as it stands (R67). -/
def State.takeSession (h : FrameNo) (s : State) (x : SessionEntry) : State :=
  match x.kind, s.line.service with
  | .start, .lineup =>
    if s.line.emit.isSome then (s.beginSession).sessionLate h x else s.sessionIgnored
  | .start, .drain => (s.resumeSession).sessionLate h x
  | .stop, .build | .stop, .full => (s.setService .drain).sessionLate h x
  | .stop, .join => ((s.setService .drain).leaveJoin).sessionLate h x
  | .start, .build | .start, .full | .start, .join | .start, .test | .start, .bypass
  | .stop, .lineup | .stop, .drain | .stop, .test | .stop, .bypass => s.sessionIgnored

/-- Every entry whose action tick has come taken, in list order (R67). -/
def State.takeSessions (s : State) (h : FrameNo) : State :=
  let due := s.line.sessions.filter (fun x => decide (x.action = h))
  let kept := s.line.sessions.filter (fun x => !decide (x.action = h))
  due.foldl (State.takeSession h) (s.setLine { s.line with sessions := kept })

/-! ### JOIN (R74, R76, R77) -/

/-- The entry to JOIN: the join record is made (R74, R75). -/
def State.enterJoin (s : State) : State :=
  s.setLine { s.line with
    service := .join
    joining := some { entryTick := s.clock.tick.getD 0, noReference := 0 } }

/-- The count of ticks without an estimate, at a JOIN tick (R76). -/
def State.countNoReference (s : State) : State :=
  match s.line.joining with
  | none => s
  | some j =>
    let n := if s.peers.estimate.isSome then 0 else j.noReference + 1
    s.setLine { s.line with joining := some { j with noReference := n } }

/-- Detail of the JOIN-ABANDONED notice: 0001H for the reference limit, 0002H for the time limit,
0003H for both, or none when neither is reached (R76). -/
def joinLimitReached (j : JoinRecord) (beacon : Nat) (h : FrameNo) : Option (BitVec 16) :=
  let reference := decide (j.noReference = 16 * beacon)
  let time := decide ((h - j.entryTick).toNat = 64 * beacon)
  if reference && time then some 3
  else if reference then some 1
  else if time then some 2
  else none

/-- The limit reached at a tick number by a station in JOIN, as the notice's detail, or none (R76). -/
def State.joinLimit (s : State) (h : FrameNo) : Option (BitVec 16) :=
  match s.line.service, s.line.joining with
  | .join, some j => joinLimitReached j s.cfg.beacon h
  | _, _ => none

/-- The join abandoned to DRAIN, with its notice (R76). -/
def State.abandonJoin (s : State) (h : FrameNo) (detail : BitVec 16) : State :=
  ((s.setService .drain).leaveJoin).notice 0x0F (some h) s.emitOrZero detail

/-- The test of the join limits at a tick (R76). -/
def State.testJoinLimits (s : State) (h : FrameNo) : State :=
  match s.joinLimit h with
  | none => s
  | some d => s.abandonJoin h d

/-- JOIN_LIMIT (R76): the test of the limits made on the join record as it stands at the current tick
number. A tick makes the same test in its own work (notes/assumptions/5.md). -/
def execJoinLimit (s : State) : Host.Outcome State Fault Refusal :=
  match s.clock.tick with
  | none => .next s
  | some h =>
    match s.joinLimit h with
    | none => .next s
    | some d => .next ((s.abandonJoin h d).setTallies)

end Sys2Proof.Machine
end

