-- ==== Sys2Proof/Machine/Peers.lean ====
section
/-! DEFINITION. The peer monitor: the roster, the beacon compare, the join reference, estimate and
completion (08_peers_beacons_and_joining.md); ROSTER_SILENT and ROSTER_FREED. -/

namespace Sys2Proof.Machine

/-- The state with another roster. -/
def State.setRoster (s : State) (r : List Peer) : State := s.setPeers { s.peers with roster := r }

/-- The roster entry of a station. -/
def findPeer (r : List Peer) (id : StationId) : Option Peer := r.find? (fun p => decide (p.id = id))

/-- The roster with the entry of a station changed. -/
def updatePeer (r : List Peer) (id : StationId) (f : Peer → Peer) : List Peer :=
  r.map (fun p => if p.id = id then f p else p)

/-- The roster without the entry of a station. -/
def removePeer (r : List Peer) (id : StationId) : List Peer :=
  r.filter (fun p => !decide (p.id = id))

/-- An entry put at its place by station id. -/
def insertPeer (p : Peer) : List Peer → List Peer
  | [] => [p]
  | q :: rest => if p.id.toNat < q.id.toNat then p :: q :: rest else q :: insertPeer p rest

/-! ### Join reference and estimate (R159, R160) -/

/-- The conditions on a join reference (R159). -/
def Peer.qualifies (p : Peer) (digest : BitVec 16) : Bool :=
  !p.silent && decide (p.digest = some digest)
    && (match p.beacon with
        | some b => (sessionOfCode b.service).isSome
        | none => false)

/-- The lowest station id of some entries. -/
def lowestId : List Peer → Option StationId
  | [] => none
  | p :: rest =>
    match lowestId rest with
    | none => some p.id
    | some i => if p.id.toNat ≤ i.toNat then some p.id else some i

/-- The join reference of a roster (R159). -/
def chooseReference (r : List Peer) (digest : BitVec 16) : Option StationId :=
  lowestId (r.filter (·.qualifies digest))

/-- The join reference chosen again, in JOIN (R159). -/
def State.refreshReference (s : State) : State :=
  if s.line.service = .join then
    s.setPeers { s.peers with reference := chooseReference s.peers.roster s.eff.digest }
  else s

/-- The join estimate at a tick, from the reference's last beacon (R160). -/
def State.estimateAt (s : State) (h : FrameNo) : Option FrameNo :=
  match s.peers.reference with
  | none => none
  | some id =>
    match (findPeer s.peers.roster id).bind (·.beacon) with
    | none => none
    | some b => some (b.emit + (h - b.tick))

/-- The estimate handed to the delay line at a tick at which it makes a JOIN selection (R160). -/
def State.handEstimate (s : State) (h : FrameNo) : State :=
  if s.line.service = .join then s.setPeers { s.peers with estimate := s.estimateAt h } else s

/-! ### Hearing a station (R149) -/

/-- A new entry: every optional field absent and every flag clear. -/
def newPeer (id : StationId) (tick : Option FrameNo) : Peer :=
  { id := id, lane := none, lastHeard := tick, beacon := none, digest := none, expected := none,
    silent := false, alignFault := false, mismatch := false }

/-- For how many ticks an entry is unheard; one with no last-heard tick counts as unheard longest. -/
def Peer.unheard (p : Peer) (tick : Option FrameNo) : Nat :=
  match tick, p.lastHeard with
  | _, none => 2 ^ 32
  | none, some _ => 0
  | some h, some x => (h - x).toNat

/-- The entry a full roster gives up: unheard for the most ticks, and of those the lowest id
(R149). -/
def victim (tick : Option FrameNo) : List Peer → Option Peer
  | [] => none
  | p :: rest =>
    match victim tick rest with
    | none => some p
    | some q =>
      if q.unheard tick < p.unheard tick then some p
      else if p.unheard tick < q.unheard tick then some q
      else if p.id.toNat ≤ q.id.toNat then some p else some q

/-- ALIGN-CLEAR for an entry that had ALIGN-FAULT, with the code of what cleared it (R149, R150,
R153). -/
def State.alignClear (s : State) (p : Peer) (code : Byte) : State :=
  if p.alignFault then s.notice 0x0C s.clock.tick 0 (bytePair (p.id.setWidth 8) code) else s

/-- Step 2 of a reception: the entry of the frame's source refreshed, made, or put in another's place
(R136, R149). -/
def State.hear (s : State) (src : StationId) : State :=
  if src = s.startup.id then s
  else
    let r := s.peers.roster
    let s1 := match findPeer r src with
      | some _ => s.setRoster
          (updatePeer r src (fun p => { p with lastHeard := s.clock.tick, silent := false }))
      | none =>
        if r.length < Config.rosterLimit then
          s.setRoster (insertPeer (newPeer src s.clock.tick) r)
        else
          match victim s.clock.tick r with
          | none => s
          | some v =>
            (s.setRoster (insertPeer (newPeer src s.clock.tick) (removePeer r v.id))).alignClear v 2
    s1.refreshReference

/-! ### Ageing (R150) -/

/-- The entry is to be marked SILENT: unheard from 3 × B up to, not including, 16 × B ticks
(R150). -/
def Peer.silentDue (p : Peer) (beacon : Nat) (h : FrameNo) : Bool :=
  match p.lastHeard with
  | none => false
  | some x => decide (3 * beacon ≤ (h - x).toNat) && decide ((h - x).toNat < 16 * beacon)

/-- The entry is to be freed: unheard for 16 × B ticks or more (R150). -/
def Peer.freeDue (p : Peer) (beacon : Nat) (h : FrameNo) : Bool :=
  match p.lastHeard with
  | none => false
  | some x => decide (16 * beacon ≤ (h - x).toNat)

/-- An entry marked SILENT (R150). -/
def State.silence (s : State) (id : StationId) : State :=
  (s.setRoster (updatePeer s.peers.roster id (fun p => { p with silent := true }))).refreshReference

/-- An entry freed, with an ALIGN-CLEAR notice if it had ALIGN-FAULT (R150). -/
def State.freePeer (s : State) (p : Peer) : State :=
  ((s.setRoster (removePeer s.peers.roster p.id)).alignClear p 2).refreshReference

/-- One entry aged at a tick (R150). -/
def State.agePeer (h : FrameNo) (s : State) (p : Peer) : State :=
  if p.freeDue s.cfg.beacon h then s.freePeer p
  else if p.silentDue s.cfg.beacon h then s.silence p.id
  else s

/-- The roster aged at a tick, once the configuration is in effect (R150). -/
def State.ageRoster (s : State) (h : FrameNo) : State :=
  if s.startup.config.isSome then s.peers.roster.foldl (State.agePeer h) s else s

/-- The last-heard ticks given at the first tick after a reset (R149). -/
def State.stampRoster (s : State) (h : FrameNo) : State :=
  s.setRoster (s.peers.roster.map fun p =>
    if p.lastHeard = none then { p with lastHeard := some h } else p)

/-- The roster at a reference discontinuity (R151). -/
def State.rebaseRoster (s : State) (h : FrameNo) : State :=
  s.setRoster (s.peers.roster.map fun p => { p with lastHeard := some h, beacon := none })

/-! ### Digests (R154) -/

/-- An entry's digest set, and CONFIG-MISMATCH judged, with a notice when the flag changes (R154). -/
def State.setDigest (s : State) (id : StationId) (digest : BitVec 16) : State :=
  let differs := decide (digest ≠ s.eff.digest)
  let was := ((findPeer s.peers.roster id).map (·.mismatch)).getD false
  let s1 := s.setRoster (updatePeer s.peers.roster id
    (fun p => { p with digest := some digest, mismatch := differs }))
  if was = differs then s1
  else s1.notice 0x0D s.clock.tick (s.eff.digest ++ digest)
    (bytePair (id.setWidth 8) (if differs then 1 else 0))

/-! ### HELLO (R153) -/

/-- What a HELLO from another station does at the peer monitor (R153). -/
def State.peersHello (s : State) (x : StationId) (m : HelloMsg) : State :=
  if x = s.startup.id then s
  else
    match findPeer s.peers.roster x with
    | none => s
    | some p =>
      let s1 := s.setRoster (updatePeer s.peers.roster x (fun q =>
        { q with lane := some m.lane, beacon := none, expected := none, alignFault := false }))
      ((s1.alignClear p 1).setDigest x m.digest).refreshReference

/-! ### The alignment compare (R157, R158) -/

/-- The difference mask of a beacon against the station's history entry and cue count (R158). -/
def differenceMask (x : HistoryEntry) (cueCount : BitVec 16) (b : LastBeacon) : Byte :=
  (if x.emit ≠ b.emit then 1 else 0) + (if x.delay ≠ b.delay.setWidth 32 then 2 else 0)
    + (if x.removed ≠ b.removed then 4 else 0) + (if cueCount ≠ b.cueCount then 8 else 0)

/-- A beacon found stale (R157, R161, R164). -/
def State.staleBeacon (s : State) : State :=
  s.setPeers { s.peers with counters :=
    { s.peers.counters with staleBeacons := bump s.peers.counters.staleBeacons } }

/-- The outcome of a compare at a sender's entry (R158). -/
def State.judgeAlignment (s : State) (id : StationId) (mask : Byte) (b : LastBeacon) : State :=
  let was := ((findPeer s.peers.roster id).map (·.alignFault)).getD false
  let s1 := s.setRoster (updatePeer s.peers.roster id
    (fun p => { p with alignFault := decide (mask ≠ 0) }))
  if mask ≠ 0 then
    let s2 := s1.setPeers { s1.peers with counters :=
      { s1.peers.counters with alignFaults := bump s1.peers.counters.alignFaults } }
    if was then s2 else s2.notice 0x0B (some b.tick) b.emit (bytePair (id.setWidth 8) mask)
  else if was then s1.notice 0x0C (some b.tick) b.emit (bytePair (id.setWidth 8) 0)
  else s1

/-- Stage 2 of a beacon's handling (R156, R157). -/
def State.compareBeacon (s : State) (id : StationId) (b : LastBeacon) (digest : BitVec 16) : State :=
  if s.line.service.inSession && (sessionOfCode b.service).isSome && decide (digest = s.eff.digest) then
    match historyAt s.line.history b.tick with
    | none => s.staleBeacon
    | some x => s.judgeAlignment id (differenceMask x s.marks.cueCount b) b
  else s

/-! ### Joining (R75, R161, R162) -/

/-- The beacon qualifies a station in LINEUP for auto-join (R75). -/
def State.autoJoins (s : State) (b : LastBeacon) (digest : BitVec 16) : Bool :=
  decide (s.line.service = .lineup) && s.cfg.autoJoin && (sessionOfCode b.service).isSome
    && decide (digest = s.eff.digest) && s.line.emit.isSome

/-- Stage 3 of a beacon's handling: the entry to JOIN from LINEUP (R75, R156). -/
def State.autoJoin (s : State) (b : LastBeacon) (digest : BitVec 16) : State :=
  if s.autoJoins b digest then s.enterJoin.enlivenMarks else s

/-- The state taken at a join completion: the beacon's, but FULL for BUILD at the target (R77). -/
def joinedState (carried : Service) (atTarget : Bool) : Service :=
  if carried = .build && atTarget then .full else carried

/-- A join completion at a converging beacon, from the station's history entry for its tick (R13,
R77, R162). -/
def State.completeJoin (s : State) (id : StationId) (b : LastBeacon) (x : HistoryEntry)
    (carried : Service) : State :=
  let add := b.removed - x.removed
  let s1 := s.setLine { s.line with
    service := joinedState carried (decide (s.line.delay.toNat = s.eff.target))
    removed := s.line.removed + add
    history := s.line.history.map (fun y => { y with removed := y.removed + add }) }
  ((s1.setMarks { s1.marks with cueCount := b.cueCount }).leaveJoin).notice 0x0E s.clock.tick
    s.emitOrZero (bytePair 0 (id.setWidth 8))

/-- Stage 4 of a beacon's handling: the reference chosen again, and the convergence test when the
sender is the reference (R156, R161). -/
def State.joinBeacon (s : State) (id : StationId) (b : LastBeacon) : State :=
  if s.line.service = .join then
    let s1 := s.refreshReference
    if s1.peers.reference = some id then
      match historyAt s1.line.history b.tick with
      | none => s1.staleBeacon
      | some x =>
        match sessionOfCode b.service with
        | some carried =>
          if x.emit = b.emit ∧ x.delay = b.delay.setWidth 32 then s1.completeJoin id b x carried
          else s1
        | none => s1
    else s1
  else s

/-- What a roster entry keeps of a BEACON (R148). -/
def BeaconMsg.last (m : BeaconMsg) : LastBeacon :=
  { tick := m.tick, emit := m.emit, delay := m.delay, service := m.service, removed := m.removed,
    cueCount := m.cueCount }

/-- Stage 1 of a beacon's handling: the sender's entry (R156). -/
def State.rosterBeacon (s : State) (x : StationId) (m : BeaconMsg) : State :=
  (s.setRoster (updatePeer s.peers.roster x (fun p => { p with beacon := some m.last }))).setDigest x
    m.digest

/-- A received BEACON, in its four stages (R156). -/
def State.receiveBeacon (s : State) (x : StationId) (m : BeaconMsg) : State :=
  if x = s.startup.id then s
  else
    (((s.rosterBeacon x m).compareBeacon x m.last m.digest).autoJoin m.last m.digest).joinBeacon x
      m.last

/-! ### The commands -/

/-- ROSTER_SILENT (R150): an entry unheard for 3 × B ticks is marked SILENT. A tick does the same in
its own work (notes/assumptions/5.md). -/
def execRosterSilent (id : StationId) (s : State) : Host.Outcome State Fault Refusal :=
  match s.startup.config, s.clock.tick, findPeer s.peers.roster id with
  | some c, some h, some p => if p.silentDue c.beacon h then .next (s.silence id) else .next s
  | _, _, _ => .next s

/-- ROSTER_FREED (R150): an entry unheard for 16 × B ticks is freed. A tick does the same in its own
work (notes/assumptions/5.md). -/
def execRosterFreed (id : StationId) (s : State) : Host.Outcome State Fault Refusal :=
  match s.startup.config, s.clock.tick, findPeer s.peers.roster id with
  | some c, some h, some p =>
    if p.freeDue c.beacon h then .next ((s.freePeer p).setTallies) else .next s
  | _, _, _ => .next s

end Sys2Proof.Machine
end

