-- ==== Sys2Proof/Machine/Panel.lean ====
section
/-! DEFINITION. The panel and report unit: presses and releases, the mark and session frames they
form, and the reports (02 section 3.3, R71, 09_panel_lines_tallies_and_reports.md). -/

namespace Sys2Proof.Machine

/-! ### Sequence numbers (R35) -/

/-- A sequence number of the station's own is in use: a record is held under it, or a MARK-OPEN waits
under it (R35). -/
def State.seqInUse (s : State) (n : Byte) : Bool :=
  let key : MarkKey := { origin := s.startup.id, seq := n, orphan := false }
  (findMark s.marks.table key).isSome
    || s.bus.queue.any (fun f => match f.msg with
        | .markOpen o => decide (o.key = key)
        | _ => false)

/-- The first number not in use from one on; the fuel counts the tries (R35). -/
def State.freeSeq (s : State) : Nat → Byte → Byte
  | 0, n => n
  | fuel + 1, n => if s.seqInUse n then s.freeSeq fuel (n + 1) else n

/-- The sequence number the next accepted MARK-OPEN takes: found within 41 tries (R35). -/
def State.ownSeq (s : State) : Byte := s.freeSeq 41 s.marks.nextSeq

/-! ### Presses and releases of the mark lines (R36 to R40) -/

/-- The station's own MARK-OPEN frames, not re-announced, that wait in the queue (R36). -/
def ownOpens (q : List TxFrame) : Nat :=
  (q.filter (fun f => match f.msg with
    | .markOpen o => !o.reannounced
    | _ => false)).length

/-- The open key of a mark line set; the DUMP line has none. -/
def State.setOpenKey (s : State) (kind : MarkKind) (key : Option MarkKey) : State :=
  match kind with
  | .dump => s
  | .cover => s.setPanel { s.panel with coverKey := key }
  | .lock => s.setPanel { s.panel with lockKey := key }

/-- The open key of a mark line. -/
def State.openKey (s : State) : MarkKind → Option MarkKey
  | .dump => none
  | .cover => s.panel.coverKey
  | .lock => s.panel.lockKey

/-- The start of the mark a press forms, from E and H (R37 to R39). -/
def pressStart (c : Settings) (guard : Nat) (kind : MarkKind) (e h : FrameNo) : FrameNo :=
  let floor := e + BitVec.ofNat 32 guard
  match kind with
  | .dump => floor
  | .cover => later (h - 1 - BitVec.ofNat 32 c.lookback) floor
  | .lock => later (h - 1) floor

/-- The end of the mark a press forms: a DUMP is closed, a COVER or LOCK open (R37 to R39). -/
def pressEnd (d : Derived) (kind : MarkKind) (start h : FrameNo) : Option FrameNo :=
  match kind with
  | .dump => some (earlier (start + BitVec.ofNat 32 d.dumpLength) h)
  | .cover | .lock => none

/-- A press past its first four tests: the frame is offered, and takes its number and open key when
the queue accepts it (R35, R36). -/
def State.offerPress (s : State) (kind : MarkKind) (start : FrameNo) (fin : Option FrameNo) : State :=
  let seq := s.ownSeq
  let o : MarkOpenMsg :=
    { origin := s.startup.id, seq := seq, kind := kind, orphan := false, reannounced := false,
      lanes := if kind = .cover then s.cfg.coverLanes else Config.allLanes,
      start := start, fin := fin }
  match s.offer (.markOpen o) 0 with
  | (s', true) => (s'.setMarks { s'.marks with nextSeq := seq + 1 }).setOpenKey kind (some o.key)
  | (s', false) => (s'.setOpenKey kind none).pressRefused kind.lineCode 0x02 s.emitOrZero

/-- A press on the DUMP, COVER or LOCK line at tick H, tested in the order of R36. -/
def State.pressMark (s : State) (kind : MarkKind) (h : FrameNo) : State :=
  if s.startup.id = 0 then s
  else if !s.line.service.inSession then
    (s.setOpenKey kind none).pressRefused kind.lineCode 0x01 s.emitOrZero
  else if Config.markLimit ≤ s.marks.table.length + ownOpens s.bus.queue then
    ((s.setOpenKey kind none).setMarks { s.marks with counters :=
      { s.marks.counters with refusedFull := bump s.marks.counters.refusedFull } }).notice 0x02
      s.clock.tick s.emitOrZero (bytePair 0 kind.lineCode)
  else
    let start := pressStart s.cfg s.eff.guard kind s.emitOrZero h
    let fin := pressEnd s.eff kind start h
    if (fin.map (fun e => atOrBefore e start)).getD false then
      (s.setMarks { s.marks with counters :=
        { s.marks.counters with tooLate := bump s.marks.counters.tooLate } }).notice 0x15
        s.clock.tick start (s.line.delay.setWidth 16)
    else s.offerPress kind start fin

/-- A release of the COVER or LOCK line at tick H: a MARK-CLOSE of the open key (R40). That the notice
of a refused close carries E, or 0 when E is none, in its frame field is the model's choice
(notes/assumptions/38.md). -/
def State.releaseMark (s : State) (kind : MarkKind) (h : FrameNo) : State :=
  match s.openKey kind with
  | none => s
  | some key =>
    match s.offer (.markClose key.origin key.seq (h + BitVec.ofNat 32 s.cfg.tail)) 0 with
    | (s', true) => s'.setOpenKey kind none
    | (s', false) => (s'.setOpenKey kind none).pressRefused kind.lineCode 0x02 s.emitOrZero

/-! ### Presses of the session lines (R71) -/

/-- A START or END press at tick H is taken: START in LINEUP, END in BUILD and FULL (R71). -/
def sessionPressTaken : SessionKind → Service → Bool
  | .start, .lineup => true
  | .stop, .build | .stop, .full => true
  | .start, .test | .start, .build | .start, .full | .start, .drain | .start, .join
  | .start, .bypass | .stop, .test | .stop, .lineup | .stop, .drain | .stop, .join
  | .stop, .bypass => false

/-- Line code of a session line (R71). -/
def SessionKind.lineCode : SessionKind → Byte
  | .start => 4
  | .stop => 5

/-- The session frame of a kind. -/
def SessionKind.msg : SessionKind → FrameNo → CueMsg
  | .start, a => .sessionStart a
  | .stop, a => .sessionEnd a

/-- A START or END press at tick H (R71). -/
def State.pressSession (s : State) (kind : SessionKind) (h : FrameNo) : State :=
  if s.startup.id = 0 then s
  else if sessionPressTaken kind s.line.service then
    match s.offer (kind.msg (h + 3)) 0 with
    | (s', true) => s'
    | (s', false) => s'.pressRefused kind.lineCode 0x02 s.emitOrZero
  else s.pressRefused kind.lineCode 0x01 s.emitOrZero

/-! ### The sample (R166, R167) -/

/-- The work of one event found at a sample, if it was found. -/
def State.onEvent (s : State) (found : Bool) (work : State → State) : State := if found then work s else s

/-- The sample of the five panel lines at tick H: releases first, then presses (R166, R167). -/
def State.samplePanel (s : State) (h : FrameNo) (now : PanelLevels) : State :=
  let s1 := s.setPanel { s.panel with last := some now }
  match s.panel.last with
  | none => s1
  | some was =>
    let s2 := s1.onEvent (was.cover && !now.cover) (·.releaseMark .cover h)
    let s3 := s2.onEvent (was.lock && !now.lock) (·.releaseMark .lock h)
    let s4 := s3.onEvent (!was.dump && now.dump) (·.pressMark .dump h)
    let s5 := s4.onEvent (!was.cover && now.cover) (·.pressMark .cover h)
    let s6 := s5.onEvent (!was.lock && now.lock) (·.pressMark .lock h)
    let s7 := s6.onEvent (!was.start && now.start) (·.pressSession .start h)
    s7.onEvent (!was.stop && now.stop) (·.pressSession .stop h)

/-! ### Reports (R175, R176) -/

/-- A count as two bytes. -/
def count16 (n : Nat) : List Byte := bytes16 (BitVec.ofNat 16 n)

/-- A count as one byte. -/
def count8 (n : Nat) : List Byte := [BitVec.ofNat 8 n]

/-- Items filled up to the 16 bytes of a group and part with zeros (R176). -/
def padTo16 (l : List Byte) : List Byte := l ++ List.replicate (16 - l.length) 0

/-- The lanes heard: bit n set when some roster entry holds lane class n (R176). -/
def lanesHeard (r : List Peer) : Byte :=
  r.foldl (fun m p => match p.lane with
    | some l => if l.toNat < 8 then m ||| ((1 : Byte) <<< l.toNat) else m
    | none => m) 0

/-- The 16 bytes of a group and part (R176). With no fault recorded the fault record's page and frame
read 0, which is the model's choice (notes/assumptions/37.md). -/
def State.reportBytes (s : State) (group : Nat) (part : Bool) : List Byte :=
  match group, part with
  | 0, false =>
    bytes16 Config.vendorCode ++ bytes16 Config.partCode ++ [Config.revision]
      ++ [s.startup.id.setWidth 8] ++ count8 s.cfg.lane
      ++ [s.line.service.code, s.startup.cause.last.code] ++ count8 s.startup.cause.restarts
      ++ [s.startup.cause.seenByte, s.startup.flags.toByte] ++ count16 s.eff.target
      ++ bytes16 s.eff.digest
  | 0, true =>
    count8 s.cfg.rateCode ++ count8 s.eff.guard ++ count8 s.cfg.build ++ count8 s.cfg.drain
      ++ count8 s.cfg.beacon ++ count8 s.cfg.cellPages ++ count8 s.cfg.lookback
      ++ count8 s.cfg.tail ++ count16 s.eff.dumpLength ++ count16 s.cfg.maxCover
      ++ count16 s.cfg.maxLock ++ [s.cfg.coverLanes, s.cfg.modeByte]
  | 1, false =>
    let c := s.ingest.counters
    count16 c.stored ++ count16 c.late ++ count16 c.ahead ++ count16 c.dup ++ count16 c.wrongLane
      ++ count16 c.truncated ++ count16 c.short ++ count16 c.headerBad
  | 1, true =>
    padTo16 (count16 s.ingest.counters.ringFull ++ count16 s.memory.alloc.length
      ++ bytes32 (BitVec.ofNat 32 s.memory.free) ++ bytes16 s.memory.head ++ bytes16 s.memory.tail)
  | 2, false =>
    let c := s.output.counters
    count16 c.missing ++ count16 c.damaged ++ count16 c.lateRead ++ count16 c.holds
      ++ count16 c.drops ++ count16 c.joinSkips ++ count8 s.memory.bad.length
      ++ [faultKindCode s.memory.fault]
      ++ bytes16 ((s.memory.fault.map (·.page)).getD 0)
  | 2, true =>
    padTo16 (bytes32 ((s.memory.fault.map (·.frame)).getD 0)
      ++ count16 s.memory.counters.pageFaults ++ count16 s.memory.counters.unlisted)
  | 3, false =>
    let c := s.marks.counters
    count16 c.applied ++ count16 c.refusedFull ++ count16 c.tooLate ++ count16 c.trimmed
      ++ count16 c.closesIgnored ++ count16 c.retractsLate ++ count16 c.gaps ++ count16 c.conflicts
  | 3, true =>
    padTo16 (count16 s.marks.counters.laneForced ++ count8 s.marks.table.length
      ++ bytes16 s.marks.cueCount ++ bytes32 s.line.removed ++ [s.marks.nextSeq]
      ++ count8 s.line.sessions.length)
  | 4, false =>
    let c := s.bus.counters
    count16 c.sent ++ count16 c.objectedAttempts ++ count16 c.abandoned ++ count16 c.objectionsRaised
      ++ count16 c.queueDiscards ++ count16 c.idClashes ++ count16 c.sessionIgnored
      ++ count16 s.peers.counters.alignFaults
  | 4, true =>
    padTo16 (count16 s.peers.counters.staleBeacons ++ count8 s.peers.roster.length
      ++ count8 (s.peers.roster.filter (·.alignFault)).length ++ count8 s.bus.queue.length
      ++ [s.bus.flagByte, (s.peers.reference.getD 0).setWidth 8, lanesHeard s.peers.roster])
  | _, _ => padTo16 []

/-- The REPORT that answers a QUERY, formed and offered at its reception (R175). -/
def State.answerQuery (s : State) (src : StationId) (group : BitVec 4) (part : Bool) : State :=
  (s.offer (.report ([groupByte group part] ++ s.reportBytes group.toNat part)) src).1

end Sys2Proof.Machine
end

