-- ==== Sys2Proof/Machine/StartUp.lean ====
section
/-! DEFINITION. The start-up controller (10_start_up_and_restart.md, R110 to R113): resets, the
configuration, the derived settings, the announcement; POWER_APPLIED, RESET_ASSERTED,
RESET_RELEASED, CONFIG_READ_COMPLETE and MEMORY_TEST_COMPLETE. -/

namespace Sys2Proof.Machine

/-! ### Resets (R177, R178) -/

/-- The reset cause record at a reset (R178). -/
def CauseRecord.update (c : CauseRecord) (kind : ResetKind) : CauseRecord :=
  match kind with
  | .power => { last := .power, restarts := 0, seenPower := true, seenPin := false, seenBus := false }
  | .pin => { c with last := .pin, restarts := min (c.restarts + 1) 255, seenPin := true }
  | .bus => { c with last := .bus, restarts := min (c.restarts + 1) 255, seenBus := true }

/-- The bad-page list after a reset: POWER empties it; PIN and BUS keep it, with the pages that a test
they cut off has listed (R108, R111, R113). -/
def badAfter (kind : ResetKind) (phase : Phase) (bad listed : List Page) : List Page :=
  match kind with
  | .power => []
  | .pin | .bus => if phase = .testing then listed.foldl addBad bad else bad

/-- The page contents after a reset: POWER leaves them undefined, so that no page holds a valid check
word; PIN and BUS leave them, but for a page write cut off (R104, R113). -/
def pagesAfter (kind : ResetKind) (m : DelayMemory) (queue : List PageWrite) : Sparse PageImage :=
  match kind with
  | .power => []
  | .pin | .bus => cutWrite m queue

/-- A reset taken at every block, the phase the sequence then stands in being given (R177). The queue
of commands is the environment's and stands. -/
def State.takeReset (s : State) (kind : ResetKind) (listed : List Page) (phase : Phase) : State :=
  { clock := .reset
    line := .reset
    marks := .reset
    ingest := .reset
    memory := .reset (badAfter kind s.startup.phase s.memory.bad listed)
      (pagesAfter kind s.memory s.ingest.writeQueue)
    output := .reset
    bus := .reset
    peers := .reset
    panel := .reset
    startup :=
      { cause := s.startup.cause.update kind
        id := s.startup.id
        config := none
        derived := none
        flags := { default := false, clamp := false, targetClamped := false }
        testResult := decide (kind = .power) || s.startup.testResult
        phase := phase }
    pending := s.pending }

/-- The start-up sequence begun: the straps sampled and the configuration read started (R179,
R180). -/
def State.beginSequence (s : State) (straps : StationId) : State :=
  s.setStartup { s.startup with id := straps, phase := .reading }

/-- A BUS reset, whose sequence begins at the same event (R177, R186). -/
def State.busReset (s : State) (straps : StationId) (listed : List Page) : State :=
  (s.takeReset .bus listed .reading).beginSequence straps

/-! ### Derived settings (R183, R184) -/

/-- The pages that cells of the largest size leave for the target: the memory term of T_eff (R183). -/
def memoryTerm (bad cellPages : Nat) : Nat := (Config.ringPages - bad) / cellPages - 3

/-- T_eff before the guard is settled: the smallest of T, 8000 and the memory term (R183). -/
def cutTarget (c : Settings) (bad : Nat) : Nat := min c.target (min 8000 (memoryTerm bad c.cellPages))

/-- T_eff and G after step 2 of the derivation (R183). -/
def settleGuard (target guard : Nat) : Nat × Nat :=
  if target < guard + 1 then
    if target - 1 < 2 then (3, 2) else (target, target - 1)
  else (target, guard)

/-- The configuration digest (R184). -/
def digestOf (c : Settings) (target guard dumpLength : Nat) : BitVec 16 :=
  BitVec.ofNat 16 (c.rateCode + target + guard + c.build + c.drain + dumpLength + c.lookback + c.tail
    + c.maxCover + c.maxLock + c.beacon)

/-- The derived settings (R183, R184). -/
def derive (c : Settings) (bad : Nat) : Derived :=
  let g := settleGuard (cutTarget c bad) c.guard
  let dumpLength := min c.dumpLength (g.1 - g.2)
  { target := g.1, guard := g.2, dumpLength := dumpLength,
    digest := digestOf c g.1 g.2 dumpLength }

/-- The configuration flags after the derivation (R183). -/
def deriveFlags (f : ConfigFlags) (c : Settings) (bad : Nat) : ConfigFlags :=
  { default := f.default
    clamp := f.clamp || decide (cutTarget c bad < c.guard + 1)
      || decide ((derive c bad).dumpLength < c.dumpLength)
    targetClamped := f.targetClamped || decide (cutTarget c bad < c.target) }

/-! ### The announcement (R152, R185) -/

/-- The HELLO of the station as it stands (R152). -/
def State.helloMsg (s : State) : CueMsg :=
  .hello
    { station := s.startup.id.setWidth 8
      lane := BitVec.ofNat 8 s.cfg.lane
      service := s.line.service.code
      cause := s.startup.cause.last.code
      restarts := BitVec.ofNat 8 s.startup.cause.restarts
      seen := s.startup.cause.seenByte
      digest := s.eff.digest
      configFlags := s.startup.flags.toByte
      vendor := Config.vendorCode
      part := Config.partCode
      revision := Config.revision }

/-- The HELLO formed and offered by a station that is not the monitor (R152). -/
def State.announce (s : State) : State :=
  if s.startup.id = 0 then s else (s.offer s.helloMsg 0).1

/-- The completion of start-up: derivation, phase DONE, the state entered, the tallies, the HELLO
(R62, R185). -/
def State.completeStartUp (s : State) : State :=
  let bad := s.memory.bad.length
  let s1 := s.setStartup { s.startup with
    derived := some (derive s.cfg bad)
    flags := deriveFlags s.startup.flags s.cfg bad
    phase := .done }
  (s1.setService (if s.startup.testResult then .bypass else .lineup)).setTallies.announce

/-! ### The configuration and the memory test -/

/-- Absence timeout in microseconds: 1.5 frame periods (R4). -/
def absenceTimeout (rateCode : Nat) : Nat :=
  match rateCode with
  | 0 => 62563
  | 1 => 62500
  | 2 => 60000
  | 3 => 50050
  | 4 => 50000
  | 5 => 30000
  | 6 => 25025
  | _ => 25000

/-- Frame period in microseconds (R4). -/
def framePeriod (rateCode : Nat) : Nat :=
  match rateCode with
  | 0 => 41708
  | 1 => 41667
  | 2 => 40000
  | 3 => 33367
  | 4 => 33333
  | 5 => 20000
  | 6 => 16683
  | _ => 16667

/-- The absence timer as it is started in LOCKED: it runs once the configuration is in effect (R4). -/
def State.absenceStart (s : State) : Option Nat :=
  s.startup.config.map (fun c => absenceTimeout c.rateCode)

/-- The settings of a record come into effect, and in LOCKED the absence timer starts (R181, R182). -/
def State.configure (s : State) (record : List Byte) : State :=
  let j := judgeRecord record
  let s1 := s.setStartup { s.startup with
    config := some j.settings
    flags := { s.startup.flags with default := j.defaulted, clamp := j.clamped } }
  if s1.clock.ref = .locked then s1.setClock { s1.clock with absence := s1.absenceStart } else s1

/-- The bad-page list a memory test leaves: the first 32 failing pages (R110). -/
def listTested (failing : List Page) : List Page := failing.foldl addBad []

/-- The fault record a memory test leaves: its last failing page (R109, R110). -/
def testFault (failing : List Page) : Option FaultRecord :=
  failing.getLast?.map (fun p => { frame := 0, page := p, kind := .testFail })

/-- The memory test completed: bad pages, fault record, an empty ring, and the test-result flag, which
a success clears (R62, R110). -/
def State.settleTest (s : State) (failing : List Page) : State :=
  let bad := listTested failing
  let s1 := s.setMemory { s.memory with
    head := 0, tail := 0, alloc := [], bad := bad, fault := testFault failing,
    free := Config.ringPages - bad.length }
  s1.setStartup { s1.startup with
    testResult := s.startup.testResult && decide (Config.badPageLimit < failing.length) }

/-! ### The commands -/

/-- POWER_APPLIED (R177): a POWER reset, with the start-up sequence begun at once unless the RESET
line is asserted. -/
def execPowerApplied (lineAsserted : Bool) (straps : StationId) (s : State) :
    Host.Outcome State Fault Refusal :=
  let s1 := s.takeReset .power [] .held
  .next (if lineAsserted then s1 else s1.beginSequence straps)

/-- RESET_ASSERTED (R177): a PIN reset, held until the line is released; with the line already
asserted the assertion has no effect. -/
def execResetAsserted (listed : List Page) (s : State) : Host.Outcome State Fault Refusal :=
  if s.startup.phase = .held then .next s else .next (s.takeReset .pin listed .held)

/-- RESET_RELEASED (R177): the start-up sequence of the pending reset begins; with the line not
asserted there is nothing to release. -/
def execResetReleased (straps : StationId) (s : State) : Host.Outcome State Fault Refusal :=
  if s.startup.phase = .held then .next (s.beginSequence straps) else .next s

/-- CONFIG_READ_COMPLETE (R181, R185): the record is judged and the settings come into effect; then,
after a POWER reset, the memory test is started, and after another, start-up completes. -/
def execConfigReadComplete (record : List Byte) (s : State) : Host.Outcome State Fault Refusal :=
  if s.startup.phase = .reading then
    let s1 := s.configure record
    if s1.startup.cause.last = .power then
      .next ((s1.setStartup { s1.startup with phase := .testing }).setMemory
        { s1.memory with pages := [] })
    else .next s1.completeStartUp
  else .next s

/-- MEMORY_TEST_COMPLETE (R110, R185): the test's pages and result are settled, and start-up
completes. -/
def execMemoryTestComplete (failing : List Page) (s : State) : Host.Outcome State Fault Refusal :=
  if s.startup.phase = .testing then .next (s.settleTest failing).completeStartUp else .next s

end Sys2Proof.Machine
end

