-- ==== Sys2Proof/Machine/Bus.lean ====
section
/-! DEFINITION. The cue bus controller (07_the_cue_bus.md): starts, arbitration, clashes, the frame
tests, the objection slot, the reception of a frame and its hand-over, attempts and abandonment;
LINE_TRACKING_FOUND, FRAME_START, ARBITRATION_LOST, ID_CLASH, FRAME_TEST and OBJECTION_SLOT_END. -/

namespace Sys2Proof.Machine

/-- The state with another part in the frame on the line. -/
def State.setActivity (s : State) (a : BusActivity) : State := s.setBus { s.bus with activity := a }

/-! ### Starting a frame (R131) -/

/-- A queued message as it is sent from the values standing at the start: a BEACON's cue count and
digest are filled in (R131). -/
def CueMsg.filled (m : CueMsg) (cueCount digest : BitVec 16) : CueMsg :=
  match m with
  | .beacon b => .beacon { b with cueCount := cueCount, digest := digest }
  | .hello _ | .markOpen _ | .markClose _ _ _ | .markRetract _ _ | .sessionStart _ | .sessionEnd _
  | .realign | .restart | .query _ _ | .report _ | .notice _ => m

/-- The frame that a start at this moment puts on the line for a queued frame. -/
def State.startedFrame (s : State) (f : TxFrame) : LineFrame :=
  lineFrame s.startup.id (f.msg.filled s.marks.cueCount s.eff.digest) f.target

/-- The conditions of R131 but for the queue: TRACKING, an idle line, a station that transmits. -/
def State.mayStart (s : State) : Bool :=
  decide (s.bus.tracking = .tracking) && decide (s.bus.activity = .quiet) && s.mayTransmit

/-! ### Abandonment (R138) -/

/-- The frame field of the SEND-ABANDONED notice for a message (R138). -/
def CueMsg.abandonedFrame (m : CueMsg) (emit : FrameNo) : FrameNo :=
  match m with
  | .markOpen o => o.start
  | .markClose _ _ e => e
  | .sessionStart a => a
  | .sessionEnd a => a
  | .hello _ | .beacon _ | .markRetract _ _ | .realign | .restart | .query _ _ | .report _
  | .notice _ => emit

/-- The low byte of the SEND-ABANDONED notice's detail: the sequence of a mark frame, the target of a
targeted frame, and 0 otherwise (R138). -/
def CueMsg.abandonedLow (m : CueMsg) (target : StationId) : Byte :=
  match m with
  | .markOpen o => o.seq
  | .markClose _ q _ => q
  | .markRetract _ q => q
  | .realign | .restart | .query _ _ | .report _ => target.setWidth 8
  | .hello _ | .beacon _ | .sessionStart _ | .sessionEnd _ | .notice _ => 0

/-- The message is a NOTICE. -/
def CueMsg.isNotice : CueMsg → Bool
  | .notice _ => true
  | _ => false

/-- The message is lost without a notice when it is abandoned: a NOTICE is (R138); of a REPORT R138 and
R175 speak differently, and it is left free (notes/assumptions/34.md). -/
def CueMsg.lostUnnoticed : CueMsg → Bool
  | .notice _ => true
  | .report _ => !Config.abandonedReportNoticed
  | .hello _ | .beacon _ | .markOpen _ | .markClose _ _ _ | .markRetract _ _ | .sessionStart _
  | .sessionEnd _ | .realign | .restart | .query _ _ => false

/-- The SEND-ABANDONED notice of a frame that is not lost without one (R138, R175). -/
def State.abandonNotice (s : State) (f : TxFrame) : State :=
  if f.msg.lostUnnoticed then s
  else s.notice 0x08 s.clock.tick (f.msg.abandonedFrame s.emitOrZero)
    (bytePair (f.msg.kind.setWidth 8) (f.msg.abandonedLow f.target))

/-- What the owner of an abandoned frame does (R42, R43, R72, R138, R139). -/
def State.ownerOfAbandoned (s : State) (m : CueMsg) : State :=
  match m with
  | .markOpen o => if o.reannounced then s else s.loseOwnOpen o
  | .hello _ => s.setBus { s.bus with helloOwed := true }
  | .beacon _ | .markClose _ _ _ | .markRetract _ _ | .sessionStart _ | .sessionEnd _ | .realign
  | .restart | .query _ _ | .report _ | .notice _ => s

/-- The head frame abandoned: it leaves the queue and is counted, the notice is asked for, the owner
is told, and the re-announce list is served (R138, R142). That the notice is offered before the list is
served is the model's choice (notes/assumptions/35.md). -/
def State.abandonHead (s : State) : State :=
  match s.bus.queue with
  | [] => s
  | f :: rest =>
    let s1 := s.setBus { s.bus with
      queue := rest
      attempts := 0
      counters := { s.bus.counters with abandoned := bump s.bus.counters.abandoned } }
    ((s1.abandonNotice f).ownerOfAbandoned f.msg).serve

/-! ### Attempts (R137) -/

/-- An attempt ended by an objection or a clash, counted at the controller. -/
def State.countAttempt (s : State) : State :=
  s.setBus { s.bus with
    attempts := s.bus.attempts + 1
    counters := { s.bus.counters with objectedAttempts := bump s.bus.counters.objectedAttempts } }

/-- A head frame whose attempts have come to four is abandoned; any other stays, held (R137). -/
def State.settleAttempt (s : State) : State :=
  if Config.attemptLimit ≤ s.bus.attempts then s.abandonHead else s

/-- What an identity clash does besides counting the attempt: the counter, and for the first since
reset the flag and its notice (R133). -/
def State.noteClash (s : State) (kind : BitVec 5) : State :=
  let s1 := s.setBus { s.bus with
    clashSeen := true
    counters := { s.bus.counters with idClashes := bump s.bus.counters.idClashes } }
  if s.bus.clashSeen then s1
  else s1.notice 0x09 s.clock.tick s.emitOrZero
    (bytePair (kind.setWidth 8) (s.startup.id.setWidth 8))

/-! ### Reception (R136) -/

/-- Step 3: the frame is for every station, or for this one and not from it. -/
def targetTakes (own : StationId) (f : LineFrame) : Bool :=
  decide (f.target = 0) || (decide (f.target = own) && decide (f.source ≠ own))

/-- The message is a RESTART. -/
def CueMsg.isRestart : CueMsg → Bool
  | .restart => true
  | _ => false

/-- A received HELLO at its owners: the mark table, then the peer monitor; the station's own clears
HELLO-owed (R57, R58, R136, R139, R153). -/
def State.receiveHello (s : State) (source : StationId) (own : Bool) (m : HelloMsg) : State :=
  let s1 := if own then s.setBus { s.bus with helloOwed := false } else s
  (s1.marksHello source).peersHello source m

/-- A received REALIGN: in BUILD and FULL the station enters JOIN; otherwise it is ignored and counted
(R74, R159). -/
def State.receiveRealign (s : State) : State :=
  if s.line.service = .build ∨ s.line.service = .full then s.enterJoin.refreshReference
  else s.sessionIgnored

/-- Step 5: a received message handed to the owner of its kind; the straps and the pages listed are
read by the BUS reset of a RESTART only. -/
def State.owner (s : State) (m : CueMsg) (source : StationId) (own : Bool) (straps : StationId)
    (listed : List Page) : State :=
  match m with
  | .hello h => s.receiveHello source own h
  | .beacon b => s.receiveBeacon source b
  | .markOpen o => s.receiveOpen o
  | .markClose origin seq fin => s.receiveClose origin seq fin
  | .markRetract origin seq => s.receiveRetract origin seq
  | .sessionStart a => s.receiveSession .start a source
  | .sessionEnd a => s.receiveSession .stop a source
  | .realign => s.receiveRealign
  | .restart => s.busReset straps listed
  | .query group part => s.answerQuery source group part
  | .report _ => s
  | .notice _ => s

/-- Steps 2 to 5 of a reception: the roster, the target, the state, the owner (R136). -/
def State.deliver (s : State) (f : LineFrame) (own : Bool) (straps : StationId)
    (listed : List Page) : State :=
  let s1 := s.hear f.source
  match readMsg f.kind f.payload with
  | none => s1
  | some m =>
    if !targetTakes s.startup.id f then s1
    else if s.line.service = .test ∧ m.isRestart = false then s1
    else s1.owner m f.source own straps listed

/-- A good frame read to its end by a station that can object: the objection run is 0 and the station
is not receive-suspect (R145). -/
def State.readGoodFrame (s : State) : State :=
  if s.mayTransmit then s.setBus { s.bus with objectionRun := 0, suspect := false } else s

/-- The end of the slot of a frame this station sent, undriven: the frame leaves the queue and is
counted and taken, and the re-announce list is served (R135, R137, R142). -/
def State.sentFrame (s : State) (f : LineFrame) (straps : StationId) (listed : List Page) : State :=
  let s1 := s.setBus { s.bus with
    queue := s.bus.queue.drop 1
    attempts := 0
    activity := .quiet
    counters := { s.bus.counters with sent := bump s.bus.counters.sent } }
  (s1.deliver f true straps listed).serve

/-! ### Objecting (R134, R135, R145) -/

/-- A station that finds a frame bad objects to it (R135). -/
def State.objects (s : State) : Bool := s.mayTransmit && !s.bus.suspect

/-- An objection raised: it is counted and the run rises; the sixteenth in a row makes the station
receive-suspect, with its notice (R145). -/
def State.raiseObjection (s : State) : State :=
  let run := min (s.bus.objectionRun + 1) Config.suspectRun
  let s1 := s.setBus { s.bus with
    objectionRun := run
    counters := { s.bus.counters with objectionsRaised := bump s.bus.counters.objectionsRaised } }
  if run = Config.suspectRun then
    (s1.setBus { s1.bus with suspect := true }).notice 0x0A s.clock.tick s.emitOrZero 16
  else s1

/-! ### The commands -/

/-- LINE_TRACKING_FOUND (R130): a controller in SEEKING finds the idle line and is TRACKING. -/
def execLineTrackingFound (s : State) : Host.Outcome State Fault Refusal :=
  if s.startup.phase = .held then .next s
  else .next (s.setBus { s.bus with tracking := .tracking })

/-- FRAME_START (R131): the head frame is started if the conditions hold. -/
def execFrameStart (s : State) : Host.Outcome State Fault Refusal :=
  match s.bus.queue with
  | [] => .next s
  | f :: _ => if s.mayStart then .next (s.setActivity (.sending (s.startedFrame f))) else .next s

/-- ARBITRATION_LOST (R132, R140): the sender becomes a receiver of the frame and nothing is counted;
a head with no attempt counted is no longer held, and takes its place in the order. -/
def execArbitrationLost (s : State) : Host.Outcome State Fault Refusal :=
  if s.bus.activity.isSending then
    .next (s.setBus { s.bus with
      activity := .reading
      queue := if s.bus.attempts = 0 then requeueHead s.bus.queue else s.bus.queue })
  else .next s

/-- ID_CLASH (R132, R133): the sender stops and reads on; the attempt and the clash are counted, the
first clash is noticed, and a fourth attempt is abandoned (notes/assumptions/11.md). -/
def execIdClash (s : State) : Host.Outcome State Fault Refusal :=
  match s.bus.activity with
  | .sending f =>
    .next ((((s.setActivity .reading).countAttempt).noteClash f.kind).settleAttempt).setTallies
  | .quiet | .reading | .judged _ _ _ => .next s

/-- FRAME_TEST (R134, R135): a station reading the frame judges it, and objects to a bad one if it
can. -/
def execFrameTest (frame : LineFrame) (s : State) : Host.Outcome State Fault Refusal :=
  if s.bus.tracking = .seeking then .next s
  else
    match s.bus.activity with
    | .sending _ | .judged _ _ _ => .next s
    | .quiet | .reading =>
      if frameGood frame then .next (s.setActivity (.judged frame true false))
      else if s.objects then
        .next ((s.setActivity (.judged frame false true)).raiseObjection).setTallies
      else .next (s.setActivity (.judged frame false false))

/-- OBJECTION_SLOT_END (R135 to R137): the slot was driven by another station, or by this one's own
objection, or by none; a frame is received when it was undriven and this station found the frame good
or sent it. -/
def execObjectionSlotEnd (driven : Bool) (straps : StationId) (listed : List Page) (s : State) :
    Host.Outcome State Fault Refusal :=
  match s.bus.activity with
  | .quiet | .reading => .next s
  | .sending f =>
    if driven then .next (((s.setActivity .quiet).countAttempt).settleAttempt).setTallies
    else .next (s.sentFrame f straps listed).setTallies
  | .judged f good _ =>
    let s1 := s.setActivity .quiet
    if good then
      if driven then .next s1.readGoodFrame.setTallies
      else .next (s1.readGoodFrame.deliver f false straps listed).setTallies
    else .next s1

end Sys2Proof.Machine
end

