-- ==== Sys2Proof/Machine/Ingest.lean ====
section
/-! DEFINITION. Ingest (04_ingest_and_the_cell_directory.md) and the hand-over to the bypass store
(R125): CELL_HEADER_ARRIVAL, CELL_PAYLOAD_BYTES and PAGE_WRITE_COMPLETE. -/

namespace Sys2Proof.Machine

/-- The state with other ingest counters. -/
def State.setIngestCounters (s : State) (c : IngestCounters) : State :=
  s.setIngest { s.ingest with counters := c }

/-! ### A cell cut short (R89) -/

/-- The directory with the entry of a cut cell DAMAGED and SHORT; its other fields are kept (R89). -/
def shortEntry (d : Sparse DirEntry) (frame : FrameNo) (first : Page) : Sparse DirEntry :=
  if describes d frame first then
    dirSet d (dirIndex frame) { dirGet d (dirIndex frame) with state := .damaged, short := true }
  else d

/-- What a new header does to the current cell, before it is tested: a cell whose stored bytes have
not all arrived is cut short, and there is no current cell (R89). -/
def State.endCurrent (s : State) : State :=
  match s.ingest.current with
  | none => s
  | some c =>
    if c.received < c.stored then
      let w : PageWrite :=
        { frame := c.frame, first := c.first, position := c.received / Config.pageBytes + 1,
          bytes := c.gathered, last := true }
      s.setIngest { s.ingest with
        current := none
        writeQueue := s.ingest.writeQueue ++ [w]
        directory := shortEntry s.ingest.directory c.frame c.first
        counters := { s.ingest.counters with short := bump s.ingest.counters.short } }
    else s.setIngest { s.ingest with current := none }

/-! ### Acceptance (R81 to R85) -/

/-- Stored length of a payload: cut at max cell pages (R83). -/
def storedLength (maxPages length : Nat) : Nat := min length (maxPages * Config.pageBytes)

/-- The payload is longer than max cell pages (R83). -/
def isTruncated (maxPages length : Nat) : Bool := decide (maxPages * Config.pageBytes < length)

/-- Pages that a number of bytes fills or begins. -/
def pagesFor (n : Nat) : Nat := n / Config.pageBytes + (if n % Config.pageBytes = 0 then 0 else 1)

/-- Page count of a stored length, at least 1 (R83). -/
def pageCount (stored : Nat) : Nat := max 1 (pagesFor stored)

/-- The entry at the frame's index already holds the frame in WRITING or COMPLETE (R81). -/
def isDup (d : Sparse DirEntry) (x : FrameNo) : Bool :=
  let e := dirGet d (dirIndex x)
  decide (e.tag = dirTag x) && (decide (e.state = .writing) || decide (e.state = .complete))

/-- The entry at the frame's index holds another frame whose pages are still allocated (R84). -/
def slotHeld (d : Sparse DirEntry) (x : FrameNo) : Bool :=
  let e := dirGet d (dirIndex x)
  decide (e.tag ≠ dirTag x) && (decide (e.state = .writing) || decide (e.state = .complete)
    || decide (e.state = .damaged))

/-- What the tests of R81 decide. -/
inductive Verdict where
  | headerBad | wrongLane | late | ahead | dup
  | ringFull (cause : Refused)
  | accept
  deriving DecidableEq, Repr

/-- Step 3: the frame is not after E (R9, R81). -/
def lateFrame (emit : Option FrameNo) (x : FrameNo) : Bool :=
  match emit with
  | some e => !before e x
  | none => false

/-- Step 4: the frame is not at or before h + 1, or there is no tick number (R81, R82). -/
def aheadFrame (tick : Option FrameNo) (x : FrameNo) : Bool :=
  match tick with
  | some h => !atOrBefore x (h + 1)
  | none => true

/-- Step 7: the slot first, then the list, then the pages (R84, R99). -/
def State.spaceFor (s : State) (x : FrameNo) (count : Nat) : Option Refused :=
  if slotHeld s.ingest.directory x then some .slotHeld else s.memory.refusal count

/-- The tests of R81 in their order. -/
def State.verdict (s : State) (h : CellHeader) : Verdict :=
  if !h.good then .headerBad
  else if h.lane ≠ s.cfg.lane then .wrongLane
  else if lateFrame s.line.emit h.frame then .late
  else if aheadFrame s.clock.tick h.frame then .ahead
  else if isDup s.ingest.directory h.frame then .dup
  else
    match s.spaceFor h.frame (pageCount (storedLength s.cfg.cellPages h.length)) with
    | some c => .ringFull c
    | none => .accept

/-- The truncated counter, increased for a cell longer than max cell pages (R83, R97). -/
def State.countTruncated (s : State) (length : Nat) : State :=
  if isTruncated s.cfg.cellPages length then
    s.setIngestCounters { s.ingest.counters with truncated := bump s.ingest.counters.truncated }
  else s

/-- A RING-FULL drop: counted, with a notice for the first of a run (R84). -/
def State.ringFull (s : State) (x : FrameNo) (cause : Refused) : State :=
  let s1 := s.setIngest { s.ingest with
    ringFullRun := true
    counters := { s.ingest.counters with ringFull := bump s.ingest.counters.ringFull } }
  if s.ingest.ringFullRun then s1 else s1.notice 0x11 s.clock.tick x cause.code

/-- The directory entry of an accepted cell (R85). -/
def acceptedEntry (x : FrameNo) (first : Page) (count stored : Nat) (truncated : Bool) : DirEntry :=
  { tag := dirTag x, state := .writing, first := first, count := count, length := stored,
    truncated := truncated, short := false }

/-- The write queue as an accepted cell leaves it: a cell of 0 bytes enters its one page write at
once (R88). -/
def queueAtHeader (q : List PageWrite) (x : FrameNo) (first : Page) (stored : Nat) : List PageWrite :=
  if stored = 0 then q ++ [{ frame := x, first := first, position := 1, bytes := [], last := true }]
  else q

/-- An accepted cell entered in the directory, the allocation list and as the current cell (R85,
R99). -/
def State.acceptCell (s : State) (h : CellHeader) : State :=
  let stored := storedLength s.cfg.cellPages h.length
  let count := pageCount stored
  let first := s.memory.grantFirst
  let g := s.ingest
  (s.setMemory (s.memory.grant h.frame count)).setIngest
    { directory := dirSet g.directory (dirIndex h.frame)
        (acceptedEntry h.frame first count stored (isTruncated s.cfg.cellPages h.length))
      current := some { frame := h.frame, first := first, count := count, stored := stored,
                        received := 0, gathered := [] }
      writeQueue := queueAtHeader g.writeQueue h.frame first stored
      ringFullRun := false
      counters := { g.counters with stored := bump g.counters.stored } }

/-- A header taken in LINEUP or a delaying state (R81). -/
def State.takeHeader (s : State) (h : CellHeader) : State :=
  let c := s.ingest.counters
  match s.verdict h with
  | .headerBad => s.setIngestCounters { c with headerBad := bump c.headerBad }
  | .wrongLane => s.setIngestCounters { c with wrongLane := bump c.wrongLane }
  | .late => s.setIngestCounters { c with late := bump c.late }
  | .ahead => s.setIngestCounters { c with ahead := bump c.ahead }
  | .dup => s.setIngestCounters { c with dup := bump c.dup }
  | .ringFull cause => (s.countTruncated h.length).ringFull h.frame cause
  | .accept => (s.countTruncated h.length).acceptCell h

/-! ### BYPASS (R80, R125) -/

/-- The store with an incomplete back entry left unsent (R125). -/
def dropIncomplete (l : List BypassCell) : List BypassCell :=
  match l.getLast? with
  | some c => if c.complete then l else l.dropLast
  | none => l

/-- A cell handed to the store: at two cells the oldest leaves unsent (R125). -/
def handBypass (l : List BypassCell) (c : BypassCell) : List BypassCell :=
  (if Config.bypassLimit ≤ l.length then l.drop 1 else l) ++ [c]

/-- A header taken in BYPASS (R80). -/
def State.bypassHeader (s : State) (h : CellHeader) : State :=
  let s1 := s.setOutput { s.output with bypass := dropIncomplete s.output.bypass }
  let c := s1.ingest.counters
  if !h.good then s1.setIngestCounters { c with headerBad := bump c.headerBad }
  else if h.lane ≠ s.cfg.lane then s1.setIngestCounters { c with wrongLane := bump c.wrongLane }
  else
    let stored := storedLength s.cfg.cellPages h.length
    let s2 := s1.countTruncated h.length
    let cell : BypassCell :=
      { frame := h.frame, lane := BitVec.ofNat 8 h.lane, declared := h.length, stored := stored,
        payload := [], truncated := isTruncated s.cfg.cellPages h.length,
        complete := decide (stored = 0), ready := false }
    s2.setOutput { s2.output with bypass := handBypass s2.output.bypass cell }

/-- Bytes arriving for a cell of the store, up to its stored length (R125). -/
def BypassCell.take (c : BypassCell) (bytes : List Byte) : BypassCell :=
  let payload := c.payload ++ bytes.take (c.stored - c.payload.length)
  { c with payload := payload, complete := decide (c.stored ≤ payload.length) }

/-- Payload bytes arriving in BYPASS: they belong to the back entry while it is not complete. -/
def bypassBytes : List BypassCell → List Byte → List BypassCell
  | [], _ => []
  | [c], bytes => if c.complete then [c] else [c.take bytes]
  | c :: d :: rest, bytes => c :: bypassBytes (d :: rest) bytes

/-! ### Payload (R88) -/

/-- Payload bytes gathered into pages: a page write is entered when its page is full or the cell's
stored bytes have all arrived; bytes past the stored length are discarded (R79, R88). The fuel counts
the runs of bytes, each at least one. -/
def gather : Nat → CurrentCell → List Byte → CurrentCell × List PageWrite
  | 0, c, _ => (c, [])
  | fuel + 1, c, bytes =>
    let room := min (Config.pageBytes - c.gathered.length) (c.stored - c.received)
    let got := bytes.take room
    if got = [] then (c, [])
    else
      let received := c.received + got.length
      let gathered := c.gathered ++ got
      if Config.pageBytes ≤ gathered.length || c.stored ≤ received then
        let w : PageWrite :=
          { frame := c.frame, first := c.first,
            position := pagesFor received,
            bytes := gathered, last := decide (c.stored ≤ received) }
        let r := gather fuel { c with received := received, gathered := [] } (bytes.drop room)
        (r.1, w :: r.2)
      else ({ c with received := received, gathered := gathered }, [])

/-- Payload bytes for the current cell (R88). -/
def State.takeBytes (s : State) (bytes : List Byte) : State :=
  match s.ingest.current with
  | none => s
  | some c =>
    let r := gather (bytes.length + 1) c bytes
    s.setIngest { s.ingest with
      current := some r.1, writeQueue := s.ingest.writeQueue ++ r.2 }

/-- The directory at the completion of a cell's last page write: its own WRITING entry becomes
COMPLETE, and any other is left as it stands (R88). -/
def completeEntry (d : Sparse DirEntry) (frame : FrameNo) (first : Page) : Sparse DirEntry :=
  if describes d frame first && decide ((dirGet d (dirIndex frame)).state = .writing) then
    changeEntry d frame first .complete
  else d

/-- The page write at the front of the queue completed (R88, R102, R104). -/
def State.completeWrite (s : State) (w : PageWrite) (rest : List PageWrite) : State :=
  let pages := match pageAt s.memory.bad w.first w.position w.position with
    | some p => storePage s.memory.pages p w
    | none => s.memory.pages
  let s1 := (s.setMemory { s.memory with pages := pages }).setIngest
    { s.ingest with writeQueue := rest }
  if w.last then
    (s1.setIngest { s1.ingest with
      directory := completeEntry s1.ingest.directory w.frame w.first }).tryFree
  else s1

/-! ### The commands -/

/-- CELL_HEADER_ARRIVAL (R79 to R85): tested against the service state in force at its arrival. -/
def execCellHeaderArrival (header : List Byte) (s : State) : Host.Outcome State Fault Refusal :=
  if s.startup.phase = .held then .next s
  else
    match s.line.service with
    | .test => .next s
    | .bypass => .next (s.bypassHeader (readCellHeader header))
    | .lineup | .build | .full | .drain | .join =>
      .next (s.endCurrent.takeHeader (readCellHeader header))

/-- CELL_PAYLOAD_BYTES (R79, R88, R125). -/
def execCellPayloadBytes (bytes : List Byte) (s : State) : Host.Outcome State Fault Refusal :=
  if s.startup.phase = .held then .next s
  else
    match s.line.service with
    | .test => .next s
    | .bypass =>
      .next (s.setOutput { s.output with bypass := bypassBytes s.output.bypass bytes })
    | .lineup | .build | .full | .drain | .join => .next (s.takeBytes bytes)

/-- PAGE_WRITE_COMPLETE (R88, R104): of the page write at the front of the write queue; with the
queue empty nothing completes. -/
def execPageWriteComplete (s : State) : Host.Outcome State Fault Refusal :=
  match s.ingest.writeQueue with
  | [] => .next s
  | w :: rest => .next (s.completeWrite w rest)

end Sys2Proof.Machine
end

