-- ==== Sys2Proof/Machine/Output.lean ====
section
/-! DEFINITION. The output stage: staging, substitution, late reads, the sending of a cell, and the
bypass store (06_output_cells.md); READ_COMPLETE, CHECK_FAIL and CELL_LEAVES_OUTPUT_LINK. -/

namespace Sys2Proof.Machine

/-! ### Sending (R121, R122, R124) -/

/-- What a cell carries before the cover treatment: a frame's payload with its TRUNCATED flag, or
nothing (section 7.1). -/
inductive Carried where
  | payload (frame : FrameNo) (bytes : List Byte) (truncated : Bool)
  | nothing
  deriving DecidableEq, Repr

/-- The flags of the cell sent for a staging (R118 to R122). -/
def Staging.flags (g : Staging) (truncated lateRead : Bool) : CellFlags :=
  { hold := decide (g.record.step = .hold)
    missing := g.missing
    damaged := g.damaged
    lateRead := lateRead
    cover := g.record.covered
    dumpEdit := decide (g.record.passed ≠ 0)
    drainEdit := decide (g.record.step = .drop)
    joinEdit := decide (g.record.step = .joinSkip)
    live := decide (g.record.service = .lineup)
    bypass := false
    truncated := truncated }

/-- The payload a covered cell is sent with under the treatment in its record (R121). -/
def SelectionRecord.treat (r : SelectionRecord) (bytes : List Byte) : List Byte :=
  if r.covered && r.blank then [] else bytes

/-- The output cell of a staging (R124). -/
def Staging.cell (g : Staging) (lane : Byte) (c : Carried) (lateRead : Bool) : OutputCell :=
  match c with
  | .payload frame bytes truncated =>
    outputCell g.record.emit frame lane g.record.service (g.flags truncated lateRead)
      (g.record.treat bytes)
  | .nothing =>
    outputCell g.record.emit g.record.emit lane g.record.service (g.flags false lateRead) []

/-- The counters that the sending of a cell increases (R118, R128). -/
def OutputCounters.countSent (c : OutputCounters) (f : CellFlags) : OutputCounters :=
  { c with
    missing := if f.missing then bump c.missing else c.missing
    damaged := if f.damaged then bump c.damaged else c.damaged
    lateRead := if f.lateRead then bump c.lateRead else c.lateRead }

/-- The station's lane class as the headers carry it. -/
def State.laneByte (s : State) : Byte := BitVec.ofNat 8 s.cfg.lane

/-- A cell joins those leaving or waiting on the output link, and is counted (R124, R128). -/
def State.sendCell (s : State) (c : OutputCell) : State :=
  s.setOutput { s.output with
    link := s.output.link ++ [c]
    counters := s.output.counters.countSent c.flags }

/-- A staging ended with its cell sent (R114, R124). -/
def State.finishStaging (s : State) (g : Staging) (c : Carried) (lateRead : Bool) : State :=
  let s1 := s.sendCell (g.cell s.laneByte c lateRead)
  s1.setOutput { s1.output with staging := none }

/-! ### Reads (R105, R107, R115) -/

/-- A read asked for with an answer of the directory, from an empty buffer: its pages are begun, or its
map check fails it at once; the answer says whether they are (R105, R107, R117). That the buffer holds
none of its bytes before it completes is the model's choice (notes/assumptions/36.md). -/
def State.startRead (s : State) (of : ReadOf) (frame : FrameNo) (first : Page) (count length : Nat)
    (truncated : Bool) : State × Bool :=
  if mapCheck s.memory.alloc frame first count then
    let r : ReadOp :=
      { of := of, frame := frame, first := first, count := count, length := length,
        truncated := truncated }
    ((s.setMemory { s.memory with reading := some r }).setOutput { s.output with buffer := [] }, true)
  else
    ((s.setOutput { s.output with buffer := [] }).memoryFault frame first first .mapFault, false)

/-- The state with another staging record. -/
def State.setStaging (s : State) (g : Option Staging) : State :=
  s.setOutput { s.output with staging := g }

/-! ### Substitution (R117, R119) -/

/-- The source frame carried in place of the emit frame (R117); with S none, a hold is MISSING
(R119). -/
def State.substitute (s : State) (g : Staging) : State :=
  match s.line.source with
  | none =>
    s.finishStaging { g with missing := g.missing || decide (g.record.step = .hold) } .nothing false
  | some x =>
    match lookup s.ingest.directory x with
    | .hit first count length truncated =>
      match s.startRead .sourceFrame x first count length truncated with
      | (s', true) => s'.setStaging (some g)
      | (s', false) => s'.finishStaging { g with damaged := true } .nothing false
    | .writing | .damaged | .freed | .empty | .otherFrame =>
      s.finishStaging { g with damaged := true } .nothing false

/-- The work of a record begun: a hold substitutes at once, every other step looks its emit frame up
(R114, R115, R116, R119). -/
def State.beginStaging (s : State) (r : SelectionRecord) : State :=
  let g : Staging := { record := r, missing := false, damaged := false }
  if r.step = .hold then s.substitute g
  else
    match lookup s.ingest.directory r.emit with
    | .hit first count length truncated =>
      match s.startRead .emitFrame r.emit first count length truncated with
      | (s', true) => s'.setStaging (some g)
      | (s', false) => s'.substitute { g with damaged := true }
    | .damaged => s.substitute { g with damaged := true }
    | .writing | .freed | .empty | .otherFrame => s.substitute { g with missing := true }

/-! ### Late reads and the arrival of a record (R114, R120) -/

/-- A read in progress abandoned, freeing being tried (R102, R105). -/
def State.abandonRead (s : State) : State :=
  match s.memory.reading with
  | none => s
  | some _ => (s.setMemory { s.memory with reading := none }).tryFree

/-- A staging whose cell has not been sent ended as a late read (R120, R126). -/
def State.endLate (s : State) : State :=
  match s.output.staging with
  | none => s
  | some g =>
    let s1 := s.abandonRead
    (s1.setOutput { s1.output with buffer := [] }).finishStaging { g with missing := true } .nothing
      true

/-- The counters that a record's step increases (R114, R128). -/
def OutputCounters.countStep (c : OutputCounters) (r : SelectionRecord) : OutputCounters :=
  match r.step with
  | .hold => { c with holds := bump c.holds }
  | .drop => { c with drops := bump c.drops }
  | .joinSkip => { c with joinSkips := bumpBy c.joinSkips (r.joinSkip.getD 0) }
  | .live | .advance | .dumpStep => c

/-- The arrival of a selection record at the output stage (R114). -/
def State.recordArrives (s : State) (r : SelectionRecord) : State :=
  let s1 := s.endLate
  (s1.setOutput { s1.output with counters := s1.output.counters.countStep r }).beginStaging r

/-! ### BYPASS output (R125) -/

/-- The oldest ready cell taken out of the store. -/
def takeReady : List BypassCell → Option BypassCell × List BypassCell
  | [] => (none, [])
  | c :: rest =>
    if c.ready then (some c, rest) else ((takeReady rest).1, c :: (takeReady rest).2)

/-- The cell sent at a BYPASS tick for a cell of the store. -/
def bypassOutput (c : BypassCell) : OutputCell :=
  outputCell c.frame c.frame c.lane .bypass
    { CellFlags.none with bypass := true, truncated := c.truncated } c.payload

/-- The cell sent at a BYPASS tick with no cell ready. -/
def bypassMissing (lane : Byte) (h : FrameNo) : OutputCell :=
  outputCell (h - 1) (h - 1) lane .bypass { CellFlags.none with bypass := true, missing := true } []

/-- The output stage's work at a BYPASS tick (R125). -/
def State.bypassTick (s : State) (h : FrameNo) : State :=
  let t := takeReady s.output.bypass
  let cell := match t.1 with
    | some c => bypassOutput c
    | none => bypassMissing s.laneByte h
  let s1 := s.sendCell cell
  s1.setOutput { s1.output with
    bypass := t.2.map (fun c => if c.complete then { c with ready := true } else c) }

/-! ### Ends of a read -/

/-- A read that completes good: the staged cell is sent, S becomes the emit frame if the read was of
it, and freeing is tried (R102, R105, R115, R117). That the staging buffer takes the cell's bytes
at the completion, and keeps them after the send until the next read begins, is the model's choice
(notes/assumptions/36.md). -/
def State.readGood (s : State) (g : Staging) (r : ReadOp) : State :=
  let bytes := bytesOfPages s.memory.pages (s.memory.readPages r)
  let s1 := s.setMemory { s.memory with reading := none }
  let s2 := match r.of with
    | .emitFrame => s1.setLine { s1.line with source := some r.frame }
    | .sourceFrame => s1
  ((s2.setOutput { s2.output with buffer := bytes }).finishStaging g
    (.payload r.frame bytes r.truncated) false).tryFree

/-- A read that ends with kind CHECK-FAIL on a page: the delay memory's steps, then the output
stage's (R106, R116, R117). -/
def State.readFailed (s : State) (g : Staging) (r : ReadOp) (p : Page) : State :=
  let s1 := (s.listFailedPage p).memoryFault r.frame r.first p .checkFail
  let s2 := s1.setOutput { s1.output with buffer := [] }
  match r.of with
  | .emitFrame => (s2.setStaging none).substitute { g with damaged := true }
  | .sourceFrame => s2.finishStaging { g with damaged := true } .nothing false

/-- A read run to the first page that does not compare equal, or to its end; `changed` is a position
whose page's bytes have changed in storage (R105). -/
def State.endRead (s : State) (g : Staging) (r : ReadOp) (changed : Option Nat) : State :=
  let pages := s.memory.readPages r
  match firstMismatch s.memory.pages r pages 1, changed with
  | none, none => s.readGood g r
  | some (_, p), none => s.readFailed g r p
  | none, some n =>
    match pages[n - 1]? with
    | some q => s.readFailed g r q
    | none => s
  | some (i, p), some n =>
    if i ≤ n then s.readFailed g r p
    else
      match pages[n - 1]? with
      | some q => s.readFailed g r q
      | none => s

/-! ### The commands -/

/-- READ_COMPLETE (R105): the read in progress runs to its end; with none in progress nothing
completes. -/
def execReadComplete (s : State) : Host.Outcome State Fault Refusal :=
  match s.output.staging, s.memory.reading with
  | some g, some r => .next ((s.endRead g r none).setTallies)
  | _, _ => .next s

/-- CHECK_FAIL (R106): the page at a position of the cell under read fails its check word; a position
outside the cell names no page. -/
def execCheckFail (position : Nat) (s : State) : Host.Outcome State Fault Refusal :=
  match s.output.staging, s.memory.reading with
  | some g, some r =>
    if position = 0 then .next s else .next ((s.endRead g r (some position)).setTallies)
  | _, _ => .next s

/-- CELL_LEAVES_OUTPUT_LINK (R124): the first of the cells in the order sent has left, and the next
waiting begins to leave. -/
def execCellLeavesOutputLink (s : State) : Host.Outcome State Fault Refusal :=
  .next (s.setOutput { s.output with link := s.output.link.drop 1 })

end Sys2Proof.Machine
end

