-- ==== Sys2Proof/Machine/Tick.lean ====
section
/-! DEFINITION. The tick and the program clock (01 sections 2.1 and 2.4): the tick's work at every
block, the reference discontinuity; REFERENCE_PULSE, ABSENCE_TIMER_EXPIRY and
OWN_TICK_TIMER_EXPIRY. -/

namespace Sys2Proof.Machine

/-! ### Beacons at a tick (R139, R155) -/

/-- The tick is a beacon tick of the station (R155). -/
def State.beaconDue (s : State) (h : FrameNo) : Bool :=
  decide (s.startup.id ≠ 0) && decide (s.line.service ≠ .test)
    && decide (h.toNat % s.cfg.beacon = s.startup.id.toNat % s.cfg.beacon)

/-- The BEACON formed at a tick: from the schedule the tick has left, or in BYPASS with the schedule's
fields 0; the cue count and digest are filled in at each start, and queued as 0 (R131, R155;
notes/assumptions/27.md). -/
def State.beaconMsg (s : State) (h : FrameNo) : CueMsg :=
  if s.line.service = .bypass then
    .beacon { tick := h, emit := 0, delay := 0, service := s.line.service.code, removed := 0,
              cueCount := 0, digest := 0 }
  else
    .beacon { tick := h, emit := s.emitOrZero, delay := s.line.delay.setWidth 16,
              service := s.line.service.code, removed := s.line.removed, cueCount := 0, digest := 0 }

/-- A HELLO owed is formed and offered at a beacon tick; accepted, it is no longer owed (R139). -/
def State.resendHello (s : State) : State :=
  if s.bus.helloOwed then
    match s.offer s.helloMsg 0 with
    | (s', true) => s'.setBus { s'.bus with helloOwed := false }
    | (s', false) => s'
  else s

/-- The BEACON, and a HELLO owed, at a tick (R139, R155). That the BEACON is offered first is the model's
choice (notes/assumptions/23.md). -/
def State.beaconTick (s : State) (h : FrameNo) : State :=
  if s.beaconDue h then ((s.offer (s.beaconMsg h) 0).1).resendHello else s

/-! ### The tick's work (R18) -/

/-- The selection record of a tick, with the state after the transitions (R26, R33). -/
def State.selectionRecord (s : State) (h : FrameNo) (x : Selection) (cover : Bool) : SelectionRecord :=
  { tick := h, service := s.line.service, emit := x.emit, step := x.step, passed := x.passed,
    joinSkip := x.joinSkip, covered := cover, blank := s.cfg.blank }

/-- Freeing tried at a tick at which E has changed while S is none (R102). -/
def State.freeAtTick (s : State) (old : Option FrameNo) : State :=
  if s.line.source = none ∧ s.line.emit ≠ old then s.tryFree else s

/-- Stage 8: the no-reference count and the join limits, in JOIN (R76). -/
def State.joinStage (s : State) (h : FrameNo) : State :=
  if s.line.service = .join then s.countNoReference.testJoinLimits h else s

/-- Stages 2 to 8 of the tick's work, in LINEUP and the delaying states (R18). -/
def State.tickLine (s : State) (h : FrameNo) : State :=
  let s0 := s.handEstimate h
  let x := s0.select h
  let cover := s0.coverAnswer x.emit
  let s1 := (s0.applySelection h x).freeAtTick s0.line.emit
  let s2 := ((s1.delayTransition).retireMarks.recordHistory h).beaconTick h
  ((s2.setCoverAir cover).recordArrives (s2.selectionRecord h x cover)).joinStage h

/-- A tick at the delay line and the output stage, by service state (R18, R125, R170). -/
def State.tickState (s : State) (h : FrameNo) : State :=
  match s.line.service with
  | .test => s.setCoverAir false
  | .bypass => ((s.setCoverAir false).bypassTick h).beaconTick h
  | .lineup | .build | .full | .drain | .join => s.tickLine h

/-- A tick's work at every block once its number stands: sessions due, the delay line and output
stage, the panel, the roster's ageing, the tallies (R18, R150, R166; notes/assumptions/5.md). -/
def State.tickWork (s : State) (h : FrameNo) (levels : PanelLevels) : State :=
  (((((s.takeSessions h).tickState h).samplePanel h levels)).ageRoster h).setTallies

/-- The tick number taken, and at the first tick after a reset the roster's last-heard ticks (R2,
R149). -/
def State.takeTick (s : State) (h : FrameNo) : State :=
  let s1 := s.setClock { s.clock with tick := some h }
  if s.clock.tick = none then s1.stampRoster h else s1

/-- A tick delivered to every block (R2). -/
def State.tick (s : State) (h : FrameNo) (levels : PanelLevels) : State :=
  (s.takeTick h).tickWork h levels

/-! ### The reference discontinuity (R7, R95, R112, R126, R151) -/

/-- What a discontinuity clears in LINEUP and the delaying states (R7, R66, R95, R112, R126). -/
def State.clearAtDiscontinuity (s : State) : State :=
  let s1 := (s.setMemory { s.memory with reading := none }).endLate
  let s2 := (s1.setIngest { s1.ingest with
      current := none, writeQueue := [], directory := [], ringFullRun := false }).setMemory
    { s1.memory with
      alloc := [], tail := s1.memory.head, free := Config.ringPages - s1.memory.bad.length
      pages := cutWrite s1.memory s1.ingest.writeQueue }
  let s3 := s2.setBus { s2.bus with counters := { s2.bus.counters with
    sessionIgnored := bumpBy s2.bus.counters.sessionIgnored s2.line.sessions.length } }
  ((s3.setLine { s3.line with service := .lineup, history := [], source := none, sessions := [] }
    ).clearMarks).leaveJoin

/-- A pulse taken as a tick whose count was not the expected one (R7). -/
def State.discontinuity (s : State) (n h : FrameNo) (levels : PanelLevels) : State :=
  let s1 := (s.notice 0x13 (some h) s.emitOrZero ((h - (n + 1)).setWidth 16)).setClock
    { s.clock with tick := some h }
  let s2 := s1.rebaseRoster h
  (if s2.line.service.selects then s2.clearAtDiscontinuity else s2).tickWork h levels

/-! ### The commands -/

/-- REFERENCE_PULSE (R2, R3, R6, R7): taken as the first tick, the next tick, the end of a holdover or
a discontinuity; in phase HELD no pulse is taken (R177). -/
def execReferencePulse (count : FrameNo) (levels : PanelLevels) (s : State) :
    Host.Outcome State Fault Refusal :=
  if s.startup.phase = .held then .next s
  else
    let s1 := s.setClock { s.clock with
      ref := .locked, holdover := false, own := none, absence := s.absenceStart }
    match s.clock.ref, s.clock.tick with
    | .searching, _ | _, none => .next (s1.tick count levels)
    | .locked, some n =>
      if count = n + 1 then .next (s1.tick count levels)
      else .next (s1.discontinuity n count levels)
    | .holdover, some n =>
      if count = n then .next s1.setTallies
      else if count = n + 1 then .next (s1.tick count levels)
      else .next (s1.discontinuity n count levels)

/-- ABSENCE_TIMER_EXPIRY (R4): with the timer running in LOCKED, an own tick, HOLDOVER, the own tick
timer and a REF-HOLDOVER notice; a stopped timer does not expire. -/
def execAbsenceTimerExpiry (levels : PanelLevels) (s : State) : Host.Outcome State Fault Refusal :=
  match s.clock.ref, s.clock.absence, s.clock.tick with
  | .locked, some _, some n =>
    let s1 := s.setClock { s.clock with
      ref := .holdover, holdover := true, absence := none
      own := some (framePeriod s.cfg.rateCode) }
    let s2 := s1.tick (n + 1) levels
    .next (s2.notice 0x12 (some (n + 1)) s2.emitOrZero 0)
  | _, _, _ => .next s

/-- OWN_TICK_TIMER_EXPIRY (R5): in HOLDOVER an own tick, and the timer starts again; a stopped timer
does not expire. -/
def execOwnTickTimerExpiry (levels : PanelLevels) (s : State) : Host.Outcome State Fault Refusal :=
  match s.clock.ref, s.clock.own, s.clock.tick with
  | .holdover, some _, some n =>
    .next ((s.setClock { s.clock with own := some (framePeriod s.cfg.rateCode) }).tick (n + 1) levels)
  | _, _, _ => .next s

end Sys2Proof.Machine
end

