-- ==== Sys2Proof/Machine/Dispatch.lean ====
section
/-! DEFINITION. Every command's meaning: one arm per row of spec/opcode_table.json. -/

namespace Sys2Proof.Machine

def exec (i : Instr) (s : State) : Host.Outcome State Fault Refusal :=
  match i with
  | .powerApplied lineAsserted straps => Sys2Proof.Machine.execPowerApplied lineAsserted straps s
  | .resetAsserted listed => Sys2Proof.Machine.execResetAsserted listed s
  | .resetReleased straps => Sys2Proof.Machine.execResetReleased straps s
  | .configReadComplete record => Sys2Proof.Machine.execConfigReadComplete record s
  | .memoryTestComplete failing => Sys2Proof.Machine.execMemoryTestComplete failing s
  | .referencePulse count levels => Sys2Proof.Machine.execReferencePulse count levels s
  | .absenceTimerExpiry levels => Sys2Proof.Machine.execAbsenceTimerExpiry levels s
  | .ownTickTimerExpiry levels => Sys2Proof.Machine.execOwnTickTimerExpiry levels s
  | .joinLimit => Sys2Proof.Machine.execJoinLimit s
  | .rosterSilent id => Sys2Proof.Machine.execRosterSilent id s
  | .rosterFreed id => Sys2Proof.Machine.execRosterFreed id s
  | .cellHeaderArrival header => Sys2Proof.Machine.execCellHeaderArrival header s
  | .cellPayloadBytes bytes => Sys2Proof.Machine.execCellPayloadBytes bytes s
  | .pageWriteComplete => Sys2Proof.Machine.execPageWriteComplete s
  | .readComplete => Sys2Proof.Machine.execReadComplete s
  | .checkFail position => Sys2Proof.Machine.execCheckFail position s
  | .lineTrackingFound => Sys2Proof.Machine.execLineTrackingFound s
  | .frameStart => Sys2Proof.Machine.execFrameStart s
  | .arbitrationLost => Sys2Proof.Machine.execArbitrationLost s
  | .idClash => Sys2Proof.Machine.execIdClash s
  | .frameTest frame => Sys2Proof.Machine.execFrameTest frame s
  | .objectionSlotEnd driven straps listed => Sys2Proof.Machine.execObjectionSlotEnd driven straps listed s
  | .cellLeavesOutputLink => Sys2Proof.Machine.execCellLeavesOutputLink s

end Sys2Proof.Machine
end

