-- ==== Sys2Proof/Safety.lean ====
section
/-! DEFINITION. What a safe run of the station is: each command completes, and what the spec says the
station never breaks stands in every state. -/

namespace Sys2Proof.Machine

/-- A command answers a next state. -/
def Completes (c : Instr) (s : State) : Prop := ∃ t, exec c s = .next t

/-! ### The transmit queue (R140) -/

/-- Never more than 8 frames nor more than one BEACON (R140). -/
def BusController.bounded (b : BusController) : Bool :=
  decide (b.queue.length ≤ Config.queueLimit)
    && decide ((b.queue.filter (·.msg.isBeacon)).length ≤ 1)

/-- A frame stands before another: by its priority number, and within one priority by its acceptance
(R140). -/
def TxFrame.ahead (f g : TxFrame) : Prop :=
  f.msg.priority < g.msg.priority ∨ (f.msg.priority = g.msg.priority ∧ f.stamp < g.stamp)

/-- The frames that are not held stand in the order of R140, a held head is the oldest of its
priority, and a head is held only where there is one. -/
def BusController.ordered (b : BusController) : Prop :=
  b.freePart.Pairwise TxFrame.ahead
    ∧ (∀ f ∈ b.heldPart, ∀ g ∈ b.freePart, f.msg.priority = g.msg.priority → f.stamp < g.stamp)
    ∧ (b.headHeld = true → b.queue ≠ [])

/-- The station puts nothing on the bus: its queue is empty, and it neither sends nor objects. -/
def BusController.silent (b : BusController) : Prop :=
  b.queue = [] ∧ b.activity.isSending = false ∧ ∀ f good, b.activity ≠ .judged f good true

/-- A station in TEST or with id 0 never drives the bus (R143, R144). -/
def State.silentWhenBarred (s : State) : Prop := s.mayTransmit = false → s.bus.silent

/-- The objection run is at most 16, a station is receive-suspect when its run is 16, and the run of a
station in TEST or with id 0 is 0 (R143 to R145). -/
def State.objectionRunOk (s : State) : Prop :=
  s.bus.objectionRun ≤ Config.suspectRun
    ∧ (s.bus.suspect = true ↔ s.bus.objectionRun = Config.suspectRun)
    ∧ (s.mayTransmit = false → s.bus.objectionRun = 0)

/-- The frame on the line is the station's own when it sends, and passed every test when it was judged
good (R131, R134). -/
def State.lineFrameOk (s : State) : Prop :=
  match s.bus.activity with
  | .sending f => f.source = s.startup.id
  | .judged f good _ => good = true → frameGood f = true
  | .quiet => True
  | .reading => True

/-! ### Tables and lists -/

/-- Up to 32 records, no two with one key (R30, R32). -/
def marksOk (table : List Mark) : Prop :=
  table.length ≤ Config.markLimit ∧ (table.map (·.key)).Nodup

/-- Up to 15 entries, one for each station heard other than the station itself (R148). -/
def State.rosterOk (s : State) : Prop :=
  s.peers.roster.length ≤ Config.rosterLimit
    ∧ (s.peers.roster.map (·.id.toNat)).Pairwise (· < ·)
    ∧ ∀ p ∈ s.peers.roster, p.id ≠ 0 ∧ p.id ≠ s.startup.id

/-- Up to 32 pages, ascending, none twice (R108). -/
def badOk (bad : List Page) : Prop :=
  bad.length ≤ Config.badPageLimit ∧ bad.Pairwise (fun p q => p.toNat < q.toNat)

/-- The lists that the spec bounds besides these: history 8, sessions 4, bypass store 2, allocation
list 8192 (R13, R60, R100, R125). -/
def State.listsBounded (s : State) : Bool :=
  decide (s.line.history.length ≤ Config.historyLimit)
    && decide (s.line.sessions.length ≤ Config.sessionLimit)
    && decide (s.output.bypass.length ≤ Config.bypassLimit)
    && decide (s.memory.alloc.length ≤ Config.allocationEntries)

/-! ### Order and spans of the mark table (R31, R32, R56) -/

/-- The records stand in table order (R32). -/
def tableOrdered (table : List Mark) : Prop := table.Pairwise (fun a b => a.precedes b = true)

/-- Every start of a table lies within 2^30 frames of a frame. -/
def startsNear (table : List Mark) (x : FrameNo) : Prop :=
  ∀ m ∈ table, -(2 ^ 30 : Int) < (m.start - x).toInt ∧ (m.start - x).toInt < 2 ^ 30

/-- The greatest length of a span by its kind (R49, R56). -/
def MarkKind.longest (c : Settings) : MarkKind → Nat
  | .dump => Config.dumpSpanLimit
  | .cover => c.maxCover
  | .lock => c.maxLock

/-- A DUMP or LOCK acts on all lanes, a DUMP is closed, and the span is not empty and no longer than its
kind allows, an open one counted to its auto-close frame (R30, R31, R56). -/
def Mark.spanOk (c : Settings) (m : Mark) : Prop :=
  (m.kind ≠ .cover → m.lanes = Config.allLanes) ∧ (m.kind = .dump → m.isOpen = false)
    ∧ 1 ≤ (m.endFrame - m.start).toNat ∧ (m.endFrame - m.start).toNat ≤ m.kind.longest c

/-- Every record's span is in its bounds, the table is empty in TEST and BYPASS, and a live span that
starts at or before E ends after it (R25, R32, R56). -/
def State.spansOk (s : State) : Prop :=
  (s.line.service.selects = false → s.marks.table = [])
    ∧ ∀ m ∈ s.marks.table, m.spanOk s.cfg
      ∧ (s.line.service.delaying = true → ∀ e, s.line.emit = some e →
          atOrBefore (e + 1) m.start = true ∨ before m.endFrame (e + 1) = false)

/-! ### Settings (R182, R183) -/

/-- The sixteen settings lie in their ranges. -/
def Settings.inRange (c : Settings) : Prop :=
  c.rateCode ≤ 7 ∧ (2 ≤ c.target ∧ c.target ≤ 8000) ∧ (2 ≤ c.guard ∧ c.guard ≤ 60)
    ∧ (2 ≤ c.build ∧ c.build ≤ 250) ∧ (2 ≤ c.drain ∧ c.drain ≤ 250)
    ∧ (1 ≤ c.dumpLength ∧ c.dumpLength ≤ 2000) ∧ c.lookback ≤ 250 ∧ c.tail ≤ 250
    ∧ (1 ≤ c.maxCover ∧ c.maxCover ≤ 2000) ∧ (1 ≤ c.maxLock ∧ c.maxLock ≤ 16000)
    ∧ (8 ≤ c.beacon ∧ c.beacon ≤ 250) ∧ (1 ≤ c.cellPages ∧ c.cellPages ≤ 64) ∧ c.lane ≤ 7

/-- T_eff lies from 3 to 8000, G from 2 to T_eff - 1, and L_eff from 1 to T_eff - G. -/
def Derived.inRange (d : Derived) : Prop :=
  (3 ≤ d.target ∧ d.target ≤ 8000) ∧ (2 ≤ d.guard ∧ d.guard ≤ d.target - 1)
    ∧ (1 ≤ d.dumpLength ∧ d.dumpLength ≤ d.target - d.guard)

/-- The settings and the derived settings in effect lie in their ranges. -/
def State.settingsOk (s : State) : Prop :=
  (∀ c, s.startup.config = some c → c.inRange) ∧ ∀ d, s.startup.derived = some d → d.inRange

/-! ### The current cell and the ring (R88, R98 to R102) -/

/-- The bytes gathered are those past the last full page, and none once the stored bytes have all
arrived (R88). -/
def CurrentCell.gatherOk (c : CurrentCell) : Prop :=
  c.received ≤ c.stored
    ∧ c.gathered.length = if c.received < c.stored then c.received % Config.pageBytes else 0

/-- The cell coming in is gathered as R88 says. -/
def State.gatherOk (s : State) : Prop := ∀ c, s.ingest.current = some c → c.gatherOk

/-- Each cell of an allocation list with the ring positions from its first page up to the next cell's,
or for the last up to the head. -/
def segments (head : Page) : List Allocation → List (Allocation × Nat)
  | [] => []
  | a :: rest =>
    (a, ringDistance a.first ((rest.head?.map (·.first)).getD head)) :: segments head rest

/-- Ring positions from the tail up to the head, none while the allocation list is empty. -/
def DelayMemory.heldLength (m : DelayMemory) : Nat := ((segments m.head m.alloc).map (·.2)).sum

/-- A page lies from the tail up to the head: a cell still listed may hold it. -/
def DelayMemory.holds (m : DelayMemory) (p : Page) : Bool :=
  decide (ringDistance m.tail p < m.heldLength)

/-- Pages not on the bad-page list among a number of ring positions from a page on. -/
def goodIn (bad : List Page) (first : Page) (n : Nat) : Nat :=
  n - (bad.filter (fun b => decide (ringDistance first b < n))).length

/-- The tail is the first page of the oldest cell, the free count is the pages not listed that lie
outside the tail up to the head, and each cell lies between its first page and the next cell's (R98,
R99, R100, R102). -/
def DelayMemory.ringOk (m : DelayMemory) : Prop :=
  m.tail = (m.alloc.head?.map (·.first)).getD m.head ∧ m.heldLength ≤ Config.ringPages
    ∧ m.free + m.heldLength + (m.bad.filter (fun p => !m.holds p)).length = Config.ringPages
    ∧ ∀ x ∈ segments m.head m.alloc, 1 ≤ x.1.count ∧ x.1.count ≤ 64 ∧ x.1.count ≤ x.2
      ∧ goodIn m.bad x.1.first x.2 ≤ x.1.count

/-- A cell whose entry is WRITING or COMPLETE, or that is being read, still walks to the pages it was
granted; outside LINEUP and the delaying states no cell is listed or read (R98, R80, R111). -/
def State.cellsOk (s : State) : Prop :=
  (s.line.service.selects = false → s.memory.alloc = [] ∧ s.memory.reading = none)
    ∧ (∀ x ∈ segments s.memory.head s.memory.alloc,
        describes s.ingest.directory x.1.frame x.1.first = true →
        (dirGet s.ingest.directory (dirIndex x.1.frame)).state = .writing
          ∨ (dirGet s.ingest.directory (dirIndex x.1.frame)).state = .complete →
        goodIn s.memory.bad x.1.first x.2 = x.1.count)
    ∧ ∀ r, s.memory.reading = some r → ∃ x ∈ segments s.memory.head s.memory.alloc,
        x.1 = { frame := r.frame, first := r.first, count := r.count }
          ∧ goodIn s.memory.bad x.1.first x.2 = x.1.count

/-- Every 16-bit counter (00_scope.md, 1.6.5). -/
def State.counters (s : State) : List Nat :=
  let m := s.marks.counters
  let g := s.ingest.counters
  let o := s.output.counters
  let b := s.bus.counters
  [m.applied, m.refusedFull, m.tooLate, m.trimmed, m.closesIgnored, m.retractsLate, m.gaps,
   m.conflicts, m.laneForced,
   g.stored, g.late, g.ahead, g.dup, g.wrongLane, g.truncated, g.short, g.headerBad, g.ringFull,
   s.memory.counters.pageFaults, s.memory.counters.unlisted,
   o.missing, o.damaged, o.lateRead, o.holds, o.drops, o.joinSkips,
   b.sent, b.objectedAttempts, b.abandoned, b.objectionsRaised, b.queueDiscards, b.idClashes,
   b.sessionIgnored, s.peers.counters.alignFaults, s.peers.counters.staleBeacons]

/-- No counter is past the value it stays at. -/
def State.countersOk (s : State) : Prop := ∀ n ∈ s.counters, n ≤ Config.counterMax

/-! ### The clock, the service state and the schedule -/

/-- The holdover flag and the own tick timer go with HOLDOVER, the absence timer runs in LOCKED once
the configuration is in effect, and there is a tick number from the first tick on (R2 to R6, R8). -/
def State.clockOk (s : State) : Prop :=
  (s.clock.holdover = true ↔ s.clock.ref = .holdover)
    ∧ (s.clock.own.isSome = true ↔ s.clock.ref = .holdover)
    ∧ (s.clock.absence.isSome = true ↔ s.clock.ref = .locked ∧ s.startup.config.isSome = true)
    ∧ (s.clock.tick = none ↔ s.clock.ref = .searching)

/-- The station is in TEST until start-up has completed, and the settings come into effect on the way
(R60, R62, R180, R185). -/
def State.phaseOk (s : State) : Prop :=
  (s.line.service = .test ↔ s.startup.phase ≠ .done)
    ∧ (s.startup.config.isSome = true ↔ s.startup.phase = .testing ∨ s.startup.phase = .done)
    ∧ (s.startup.derived.isSome = true ↔ s.startup.phase = .done)

/-- In phase HELD every block but the delay memory and the start-up controller stands as a reset leaves
it (R177). -/
def State.heldOk (s : State) : Prop :=
  s.startup.phase = .held →
    s.clock = .reset ∧ s.line = .reset ∧ s.marks = .reset ∧ s.ingest = .reset ∧ s.output = .reset
      ∧ s.bus = .reset ∧ s.peers = .reset ∧ s.panel = .reset ∧ s.memory.reading = none

/-- The join record is present in JOIN and absent in every other state, and so are the join reference
and estimate (R60, R159). -/
def State.joinOk (s : State) : Prop :=
  (s.line.joining.isSome = true ↔ s.line.service = .join)
    ∧ (s.line.service ≠ .join → s.peers.reference = none ∧ s.peers.estimate = none)

/-- D is the tick number less E, and 0 while E is none, which it is in TEST and BYPASS (R9, R10). -/
def State.scheduleOk (s : State) : Prop :=
  (s.line.service = .test ∨ s.line.service = .bypass → s.line.emit = none)
    ∧ (s.line.emit = none → s.line.delay = 0)
    ∧ ∀ e, s.line.emit = some e → ∃ h, s.clock.tick = some h ∧ s.line.delay = h - e

/-- In JOIN the join reference is the one that R159 chooses from the roster as it stands. -/
def State.referenceOk (s : State) : Prop :=
  s.line.service = .join → s.peers.reference = chooseReference s.peers.roster s.eff.digest

/-- In LINEUP D is 1 once there is an E, in the delaying states there is an E and D lies from 1 to T_eff,
and in BUILD D is below T_eff (R27). -/
def State.delayOk (s : State) : Prop :=
  (s.line.service = .lineup → s.line.emit.isSome = true → s.line.delay = 1)
    ∧ (s.line.service.delaying = true → s.line.emit.isSome = true ∧ 1 ≤ s.line.delay.toNat
        ∧ s.line.delay.toNat ≤ s.eff.target)
    ∧ (s.line.service = .build → s.line.delay.toNat < s.eff.target)

/-- No live DUMP ends after the current tick number, the ground of R17. -/
def State.dumpsClamped (s : State) : Prop :=
  s.line.service.delaying = true → ∀ h, s.clock.tick = some h →
    ∀ m ∈ s.marks.table, m.kind = .dump → (m.endFrame - h).toInt ≤ 0

/-- Every DUMP held ends within 2^30 frames of the current tick number. -/
def State.dumpsNear (s : State) : Prop :=
  ∀ h, s.clock.tick = some h → ∀ m ∈ s.marks.table, m.kind = .dump →
    -(2 ^ 30 : Int) < (m.endFrame - h).toInt ∧ (m.endFrame - h).toInt < 2 ^ 30

/-- The last beacon of the join reference, in JOIN, shows a delay from 1 to T_eff, as every beacon of a
2408 in step does (R23, R27). -/
def State.referenceNear (s : State) : Prop :=
  s.line.service = .join → ∀ id p b, s.peers.reference = some id →
    findPeer s.peers.roster id = some p → p.beacon = some b →
    1 ≤ (b.tick - b.emit).toNat ∧ (b.tick - b.emit).toNat ≤ s.eff.target

/-- The tallies of R168, R169, R171 and R172 show their conditions. -/
def State.talliesOk (s : State) : Prop :=
  s.panel.tallies.ready = s.readyCondition
    ∧ s.panel.tallies.dumpAvail = s.dumpAvailCondition
    ∧ s.panel.tallies.align = s.alignCondition
    ∧ s.panel.tallies.service = s.serviceCondition

/-! ### Words for the statements -/

/-- The number of the tick that a command makes, where it makes one that is no discontinuity (R2 to
R6). -/
def State.tickMade (s : State) : Instr → Option FrameNo
  | .referencePulse n _ =>
    if s.startup.phase = .held then none
    else
      match s.clock.ref, s.clock.tick with
      | .searching, _ | _, none => some n
      | .locked, some m | .holdover, some m => if n = m + 1 then some n else none
  | .absenceTimerExpiry _ =>
    match s.clock.ref, s.clock.absence, s.clock.tick with
    | .locked, some _, some m => some (m + 1)
    | _, _, _ => none
  | .ownTickTimerExpiry _ =>
    match s.clock.ref, s.clock.own, s.clock.tick with
    | .holdover, some _, some m => some (m + 1)
    | _, _, _ => none
  | _ => none

/-- No session frame is due at a tick. -/
def State.noneDue (s : State) (h : FrameNo) : Prop := ∀ x ∈ s.line.sessions, x.action ≠ h

/-- Every block but the delay memory and the start-up controller stands at its reset values. -/
def State.blocksReset (t : State) : Prop :=
  t.clock = .reset ∧ t.line = .reset ∧ t.marks = .reset ∧ t.ingest = .reset ∧ t.output = .reset
    ∧ t.bus = .reset ∧ t.peers = .reset ∧ t.panel = .reset

/-- A page is the one that the write in progress is writing. -/
def State.beingWritten (s : State) (i : Nat) : Prop :=
  ∃ w rest p, s.ingest.writeQueue = w :: rest
    ∧ pageAt s.memory.bad w.first w.position w.position = some p ∧ p.toNat = i

/-- The delay memory as a PIN or BUS reset leaves it: an empty ring over the pages not listed, no
fault, no read, the counters at 0, and the pages as they were but the one being written (R104, R113). -/
def State.memoryAfterReset (s t : State) (bad : List Page) : Prop :=
  t.memory.bad = bad ∧ t.memory.head = 0 ∧ t.memory.tail = 0 ∧ t.memory.alloc = []
    ∧ t.memory.free = Config.ringPages - bad.length ∧ t.memory.fault = none
    ∧ t.memory.reading = none ∧ t.memory.counters = { pageFaults := 0, unlisted := 0 }
    ∧ ∀ i, ¬ s.beingWritten i → sparseGet t.memory.pages i = sparseGet s.memory.pages i

/-- A RESTART that this station takes stands on the line, sent by it or read good (R134 to R136). -/
def State.holdsRestart (s : State) : Bool :=
  match s.bus.activity with
  | .sending f => decide (f.kind = 9) && targetTakes s.startup.id f
  | .judged f good _ => good && decide (f.kind = 9) && targetTakes s.startup.id f
  | .quiet => false
  | .reading => false

/-- A frame of another station's stands read good at the end of its objection slot. -/
def State.hasReadGood (s : State) (f : LineFrame) : Prop :=
  s.bus.activity = .judged f true false ∧ f.source ≠ s.startup.id

/-- An entry may be the join reference (R159). -/
def Peer.mayLead (p : Peer) (digest : BitVec 16) : Prop :=
  p.silent = false ∧ p.digest = some digest
    ∧ ∃ b, p.beacon = some b ∧ (b.service = 2 ∨ b.service = 3 ∨ b.service = 4)

/-- A beacon converges with the station's schedule: its history holds an entry of the beacon's tick with
the same emit frame and delay (R161). -/
def State.convergesWith (s : State) (m : BeaconMsg) : Prop :=
  ∃ x, historyAt s.line.history m.tick = some x ∧ x.emit = m.emit ∧ x.delay = m.delay.setWidth 32

/-- A queued notice, by its four fields (R173). -/
def BusController.hasNotice (b : BusController) (code : Byte) (tick : Option FrameNo) (frame : FrameNo)
    (detail : BitVec 16) : Prop :=
  ∃ f ∈ b.queue, f.msg = .notice
    { code := code, tick := (tick.getD 0).setWidth 16, frame := frame, detail := detail }

/-- The levels of the panel lines that a tick's command brings (R166). -/
def panelLevels : Instr → Option PanelLevels
  | .referencePulse _ l => some l
  | .absenceTimerExpiry l => some l
  | .ownTickTimerExpiry l => some l
  | _ => none

/-- A command resets the station: power, the RESET line, or a RESTART taken (R177, R186). -/
def State.resetBy (s : State) : Instr → Bool
  | .powerApplied _ _ => true
  | .resetAsserted _ => true
  | .objectionSlotEnd driven _ _ => !driven && s.holdsRestart
  | _ => false

/-- The flags of a cell sent for a selection record, from the record and the payload flags given
(R118 to R122). -/
def SelectionRecord.sentFlags (r : SelectionRecord) (missing damaged late : Bool) : CellFlags :=
  { hold := decide (r.step = .hold), missing := missing, damaged := damaged, lateRead := late
    cover := r.covered, dumpEdit := decide (r.passed ≠ 0), drainEdit := decide (r.step = .drop)
    joinEdit := decide (r.step = .joinSkip), live := decide (r.service = .lineup), bypass := false
    truncated := false }

/-- The cell sent for a selection record with no carried payload (R118, R119, R124). -/
def SelectionRecord.emptyCell (r : SelectionRecord) (lane : Byte) (missing damaged late : Bool) :
    OutputCell :=
  outputCell r.emit r.emit lane r.service (r.sentFlags missing damaged late) []

/-- The delay line as a join completion at a beacon leaves it, from the history entry of the beacon's
tick (R13, R77, R162). -/
def State.joinedLine (s : State) (m : BeaconMsg) (x : HistoryEntry) : DelayLine :=
  { s.line with
    service := if m.service = 3 then .full else if m.service = 4 then .drain
      else if s.line.delay.toNat = s.eff.target then .full else .build
    removed := m.removed + s.line.removed - x.removed
    history := s.line.history.map (fun y => { y with removed := y.removed + (m.removed - x.removed) })
    joining := none }

/-- The marks of a station's own and every orphan stand re-announced in a state: those queued, and behind
them those still to be, are the keys in order of applied-at tick and then of the table, each queued one
with its MARK-OPEN, and none is left while the queue would take one (R58). -/
def State.reannouncesIn (s t : State) (served : List MarkKey) : Prop :=
  (served ++ t.marks.reannounce).Nodup
    ∧ (∀ q, q ∈ served ++ t.marks.reannounce ↔ ∃ x ∈ t.marks.table, x.key = q
        ∧ (q.origin = s.startup.id ∨ q.orphan = true))
    ∧ (∀ z, (∀ x ∈ s.marks.table, ∀ a, x.appliedAt = some a →
          -(2 ^ 30 : Int) < (a - z).toInt ∧ (a - z).toInt < 2 ^ 30) →
        (served ++ t.marks.reannounce).Pairwise (fun p q => ∀ x y,
          findMark t.marks.table p = some x → findMark t.marks.table q = some y →
          olderApplied x.appliedAt y.appliedAt = true
            ∨ (x.appliedAt = y.appliedAt
                ∧ (t.marks.table.idxOf x < t.marks.table.idxOf y))))
    ∧ (∀ q ∈ served, ∃ x ∈ t.marks.table, x.key = q ∧ ∃ f ∈ t.bus.queue, f.target = 0
        ∧ f.msg = .markOpen
          { origin := q.origin, seq := q.seq, kind := x.kind, orphan := q.orphan
            reannounced := true, lanes := x.lanes
            start := match x.fin with
              | .closed _ => x.start
              | .openUntil a => a - s.cfg.openSpan x.kind
            fin := match x.fin with
              | .closed y => some y
              | .openUntil _ => none })
    ∧ (t.marks.reannounce ≠ [] → 8 ≤ t.bus.queue.length
        ∧ ∀ f ∈ t.bus.freePart, f.msg.priority ≤ 2)

/-- Every span of a table lies within 2^30 frames of a frame, and is not empty. -/
def spansNear (table : List Mark) (x : FrameNo) : Prop :=
  ∀ m ∈ table, -(2 ^ 30 : Int) < (m.start - x).toInt
    ∧ (m.start - x).toInt < (m.endFrame - x).toInt ∧ (m.endFrame - x).toInt < 2 ^ 30

/-- The station is not in a fault or a refusal after any command: every command completes. -/
def SafeRun (s : State) : Prop := ∀ c ∈ s.pending, Completes c s

end Sys2Proof.Machine
end

