-- ==== Sys2Proof/WellFormed.lean ====
section
/-! DEFINITION. Which commands the environment can send: the operands' lengths and ranges that the
types do not already fix. -/

namespace Sys2Proof

/-- Pages in ascending order with none twice, as the memory test finds them (R110). -/
def ascending : List Page → Bool
  | [] => true
  | [_] => true
  | p :: q :: rest => decide (p.toNat < q.toNat) && ascending (q :: rest)

/-- A command whose operands have the lengths and ranges the spec gives them. -/
def Instr.wf : Instr → Bool
  | .resetAsserted listed => ascending listed && decide (listed.length ≤ Config.badPageLimit)
  | .configReadComplete record => decide (record.length = 48)
  | .memoryTestComplete failing =>
    ascending failing && decide (failing.length ≤ Config.badPageLimit + 1)
  | .cellHeaderArrival header => decide (header.length = 12)
  | .checkFail position => decide (1 ≤ position) && decide (position ≤ 64)
  | .frameTest frame => decide (frame.payload.length = frame.length.toNat)
  | .objectionSlotEnd _ _ listed =>
    ascending listed && decide (listed.length ≤ Config.badPageLimit)
  | .powerApplied _ _ => true
  | .resetReleased _ => true
  | .referencePulse _ _ => true
  | .absenceTimerExpiry _ => true
  | .ownTickTimerExpiry _ => true
  | .joinLimit => true
  | .rosterSilent _ => true
  | .rosterFreed _ => true
  | .cellPayloadBytes _ => true
  | .pageWriteComplete => true
  | .readComplete => true
  | .lineTrackingFound => true
  | .frameStart => true
  | .arbitrationLost => true
  | .idClash => true
  | .cellLeavesOutputLink => true

end Sys2Proof
end

