-- ==== Sys2Proof/Certificates/Slice0/Obligations.lean ====
section
/-! DEFINITION. The statements for the provers. -/

open Sys2Proof Sys2Proof.Machine

/-! ### The machine -/

/-- A step takes the command at the front of the queue and answers what it answers with the queue's
rest; with the queue empty the station idles, which is the model's choice (notes/assumptions/3.md). -/
def Obligations.StepRunsTheFrontCommand : Prop :=
  (∀ (c : Instr) (rest : List Instr) (s : State), s.pending = c :: rest →
    step s = exec c (s.setPending rest))
  ∧ ∀ s : State, s.pending = [] → step s = .next s

/-- Every command completes in every state: the station has no event that stops it, and a run over any
queue is safe; a command whose occasion does not stand completes with no effect, by the model's choice
(notes/assumptions/2.md). -/
def Obligations.EveryCommandCompletes : Prop :=
  (∀ (c : Instr) (s : State), Completes c s) ∧ ∀ s : State, SafeRun s

/-- What the spec says the station never breaks holds right after reset, of which the station id is the
model's choice (notes/assumptions/4.md). -/
def Obligations.InvariantsHoldAtReset : Prop :=
  State.reset.memoryWf = true ∧ State.reset.bus.bounded = true ∧ State.reset.bus.ordered
    ∧ State.reset.silentWhenBarred ∧ State.reset.objectionRunOk ∧ State.reset.lineFrameOk
    ∧ marksOk State.reset.marks.table ∧ tableOrdered State.reset.marks.table ∧ State.reset.spansOk
    ∧ State.reset.rosterOk ∧ badOk State.reset.memory.bad ∧ State.reset.memory.ringOk
    ∧ State.reset.cellsOk ∧ State.reset.gatherOk ∧ State.reset.listsBounded = true
    ∧ State.reset.countersOk ∧ State.reset.clockOk ∧ State.reset.phaseOk ∧ State.reset.settingsOk
    ∧ State.reset.heldOk ∧ State.reset.joinOk ∧ State.reset.referenceOk ∧ State.reset.scheduleOk
    ∧ State.reset.delayOk ∧ State.reset.dumpsClamped ∧ State.reset.talliesOk

/-! ### Start-up and restart -/

/-- The application of power gives the POWER reset's values everywhere; the sequence begins at once
unless the RESET line is asserted, and then the station is HELD. The model's choices in it: the id that a
held station keeps until the straps are sampled (notes/assumptions/4.md), the queue of commands that stands
(3.md), pages of which none holds a valid check word (7.md), and the output link left empty (18.md). -/
def Obligations.PowerAppliedTakesPowerReset : Prop :=
  ∀ (s : State) (straps : StationId),
    exec (.powerApplied false straps) s = .next
      ({ State.reset with startup := { State.reset.startup with id := straps } }.setPending s.pending)
    ∧ exec (.powerApplied true straps) s = .next
      ({ State.reset with startup :=
        { State.reset.startup with id := s.startup.id, phase := .held } }.setPending s.pending)

/-- A PIN reset at the assertion of the RESET line, which holds the station, and a BUS reset at a RESTART
received good at its target, in every service state, whose sequence begins at the same event with the
sampling of the straps. Each leaves every block at its reset values and counts in the cause record. The
model's choices in it: the id stands while the station is held (notes/assumptions/4.md), the queue of
commands stands (3.md), the pages that a memory test cut off has listed come with the command and join
the bad-page list (9.md), and the output link is left empty (18.md). -/
def Obligations.PinAndBusResetsTaken : Prop :=
  (∀ (s : State) (listed : List Page), s.startup.phase ≠ .held →
    ∃ t, exec (.resetAsserted listed) s = .next t ∧ t.blocksReset ∧ t.pending = s.pending
      ∧ s.memoryAfterReset t
          (if s.startup.phase = .testing then listed.foldl addBad s.memory.bad else s.memory.bad)
      ∧ t.startup =
        { cause := { s.startup.cause with
            last := .pin, restarts := min (s.startup.cause.restarts + 1) 255, seenPin := true }
          id := s.startup.id, config := none, derived := none
          flags := { default := false, clamp := false, targetClamped := false }
          testResult := s.startup.testResult, phase := .held })
  ∧ ∀ (s : State) (f : LineFrame) (straps : StationId) (listed : List Page),
    s.hasReadGood f → f.kind = 9 → f.target = s.startup.id →
    ∃ t, exec (.objectionSlotEnd false straps listed) s = .next t ∧ t.blocksReset
      ∧ t.pending = s.pending
      ∧ s.memoryAfterReset t
          (if s.startup.phase = .testing then listed.foldl addBad s.memory.bad else s.memory.bad)
      ∧ t.startup =
        { cause := { s.startup.cause with
            last := .bus, restarts := min (s.startup.cause.restarts + 1) 255, seenBus := true }
          id := straps, config := none, derived := none
          flags := { default := false, clamp := false, targetClamped := false }
          testResult := s.startup.testResult, phase := .reading }

/-- The reset cause record is rebuilt by a POWER reset, updated by a PIN or a BUS reset, and changed by
nothing else; HELLO and REPORT group 0, part 0 carry it. -/
def Obligations.CauseRecordChangedByResetsOnly : Prop :=
  (∀ (c : Instr) (s t : State), exec c s = .next t →
    match c with
    | .powerApplied _ _ =>
      t.startup.cause
        = { last := .power, restarts := 0, seenPower := true, seenPin := false, seenBus := false }
    | .resetAsserted _ => s.startup.phase ≠ .held →
      t.startup.cause = { s.startup.cause with
        last := .pin, restarts := min (s.startup.cause.restarts + 1) 255, seenPin := true }
    | .objectionSlotEnd driven _ _ =>
      t.startup.cause =
        if driven = false ∧ s.holdsRestart = true then { s.startup.cause with
          last := .bus, restarts := min (s.startup.cause.restarts + 1) 255, seenBus := true }
        else s.startup.cause
    | _ => t.startup.cause = s.startup.cause)
  ∧ ∀ s : State,
    (∃ m, s.helloMsg = .hello m ∧ m.cause = s.startup.cause.last.code
      ∧ m.restarts = BitVec.ofNat 8 s.startup.cause.restarts ∧ m.seen = s.startup.cause.seenByte)
    ∧ (s.reportBytes 0 false)[8]? = some s.startup.cause.last.code
    ∧ (s.reportBytes 0 false)[9]? = some (BitVec.ofNat 8 s.startup.cause.restarts)
    ∧ (s.reportBytes 0 false)[10]? = some s.startup.cause.seenByte

/-- While the RESET line is held asserted the station stays as the reset left it: every command but the
release and the application of power changes nothing (for those whose occasion cannot stand by the model's
choice, notes/assumptions/2.md). The release samples the straps and starts the configuration read, and
changes nothing else. -/
def Obligations.HeldStationAwaitsRelease : Prop :=
  (∀ (c : Instr) (s : State), s.startup.phase = .held → s.heldOk → s.phaseOk →
    (∀ asserted straps, c ≠ .powerApplied asserted straps) → (∀ straps, c ≠ .resetReleased straps) →
    exec c s = .next s)
  ∧ ∀ (s : State) (straps : StationId), s.startup.phase = .held →
    exec (.resetReleased straps) s
      = .next (s.setStartup { s.startup with id := straps, phase := .reading })

/-- The way from the completed configuration read to LINEUP or BYPASS. After a POWER reset the read puts
the settings in effect and starts the memory test, and in LOCKED the absence timer starts. After a PIN or
BUS reset it completes start-up: the settings and what is derived from them, LINEUP or BYPASS by the
test-result flag, and the HELLO alone in the queue of a station that is no monitor. The memory test's end
settles the bad-page list with the first 32 failing pages, the fault record with the last failing page and
an empty ring; a test that found at most 32 succeeds and clears the test-result flag, one that found 33
leaves it as it was; start-up completes. That no page holds a valid check word from the start of the memory
test on is the model's choice (notes/assumptions/7.md). -/
def Obligations.ReadAndTestSettleStartUp : Prop :=
  (∀ (s : State) (record : List Byte), s.startup.phase = .reading → s.startup.cause.last = .power →
    ∃ t, exec (.configReadComplete record) s = .next t
      ∧ t.startup = { s.startup with
          config := some (judgeRecord record).settings
          flags := { s.startup.flags with
            default := (judgeRecord record).defaulted, clamp := (judgeRecord record).clamped }
          phase := .testing }
      ∧ t.clock = (if s.clock.ref = .locked then
          { s.clock with absence := some (absenceTimeout (judgeRecord record).settings.rateCode) }
        else s.clock)
      ∧ t.memory = { s.memory with pages := [] }
      ∧ t.line = s.line ∧ t.marks = s.marks ∧ t.ingest = s.ingest ∧ t.output = s.output
      ∧ t.bus = s.bus ∧ t.peers = s.peers ∧ t.panel = s.panel ∧ t.pending = s.pending)
  ∧ (∀ (s : State) (record : List Byte), s.startup.phase = .reading → s.startup.cause.last ≠ .power →
    s.bus.queue = [] → s.bus.headHeld = false →
    ∃ t, exec (.configReadComplete record) s = .next t
      ∧ t.startup.phase = .done ∧ t.startup.config = some (judgeRecord record).settings
      ∧ t.startup.derived = some (derive (judgeRecord record).settings s.memory.bad.length)
      ∧ t.line = { s.line with service := if s.startup.testResult then .bypass else .lineup }
      ∧ t.memory = s.memory
      ∧ (s.startup.id = 0 → t.bus = s.bus)
      ∧ (s.startup.id ≠ 0 → t.bus.queue.map (fun f => (f.msg, f.target)) =
          [(.hello
            { station := s.startup.id.setWidth 8
              lane := BitVec.ofNat 8 (judgeRecord record).settings.lane
              service := if s.startup.testResult then 6 else 1
              cause := s.startup.cause.last.code
              restarts := BitVec.ofNat 8 s.startup.cause.restarts
              seen := s.startup.cause.seenByte
              digest := (derive (judgeRecord record).settings s.memory.bad.length).digest
              configFlags := t.startup.flags.toByte
              vendor := 0x1C7, part := 0x2408, revision := 0x02 }, 0)]))
  ∧ ∀ (s : State) (failing : List Page), s.startup.phase = .testing → s.startup.testResult = true →
    Instr.wf (.memoryTestComplete failing) = true →
    ∃ t, exec (.memoryTestComplete failing) s = .next t
      ∧ t.memory.bad = failing.take 32
      ∧ t.memory.free = Config.ringPages - (failing.take 32).length
      ∧ t.memory.fault
          = failing.getLast?.map (fun p => { frame := 0, page := p, kind := .testFail })
      ∧ t.memory.head = 0 ∧ t.memory.tail = 0 ∧ t.memory.alloc = []
      ∧ t.startup.phase = .done ∧ t.startup.testResult = decide (failing.length = 33)
      ∧ t.line = { s.line with service := if failing.length = 33 then .bypass else .lineup }

/-- The settings that the judging of a record settles lie in their ranges, whatever the record, and so
does what is derived from them for a bad-page list of at most 32 pages: T_eff from 3 to 8000, G from 2 to
T_eff - 1, L_eff from 1 to T_eff - G, and T_eff no more than a target of 3 or more. The settings in effect
stay in their ranges at every step. -/
def Obligations.SettingsInRange : Prop :=
  (∀ (record : List Byte) (bad : Nat), bad ≤ 32 →
    let c := (judgeRecord record).settings
    let d := derive c bad
    c.inRange ∧ d.inRange ∧ (3 ≤ c.target → d.target ≤ c.target))
  ∧ ∀ s t : State, badOk s.memory.bad → s.phaseOk → s.settingsOk → step s = .next t → t.settingsOk

/-! ### The program clock -/

/-- A pulse taken as a tick is the tick of its count: the clock is LOCKED with the holdover over, the
own tick timer stopped and the absence timer running from the configuration in effect. A pulse in HOLDOVER
whose count is the current tick number ends the holdover and makes no tick: only the clock and the tallies
change. -/
def Obligations.PulseIsTheTickOfItsCount : Prop :=
  (∀ (s : State) (n h : FrameNo) (levels : PanelLevels),
    s.tickMade (.referencePulse n levels) = some h →
    h = n ∧ ∃ t, exec (.referencePulse n levels) s = .next t
      ∧ t.clock = { tick := some n, ref := .locked, holdover := false, own := none
                    absence := s.startup.config.map (fun c => absenceTimeout c.rateCode) }
      ∧ t.startup = s.startup ∧ t.pending = s.pending)
  ∧ ∀ (s : State) (n : FrameNo) (levels : PanelLevels), s.startup.phase ≠ .held →
    s.clock.ref = .holdover → s.clock.tick = some n →
    exec (.referencePulse n levels) s = .next
      (s.setClock { tick := some n, ref := .locked, holdover := false, own := none
                    absence := s.startup.config.map (fun c => absenceTimeout c.rateCode) }).setTallies

/-- A reference discontinuity: the count is the tick number, its notice is formed, and every roster entry
takes the count as its last-heard tick and loses its last beacon. In LINEUP or a delaying state the
selection is LINEUP's, and the mark table, history, sessions, directory and ring are emptied; a cell still
staged is sent first as a late read, and the tick's own is MISSING; the removed total, the cue count, the
bad-page list and the fault record are kept. In TEST and BYPASS nothing else changes but by the tick. -/
def Obligations.DiscontinuityReturnsToLineup : Prop :=
  ∀ (s : State) (n h : FrameNo) (levels : PanelLevels), s.startup.phase ≠ .held →
    s.clock.tick = some n → h ≠ n + 1 →
    (s.clock.ref = .locked ∨ (s.clock.ref = .holdover ∧ h ≠ n)) →
    let k := s.output.counters
    let own : SelectionRecord :=
      { tick := h, service := .lineup, emit := h - 1, step := .live, passed := 0, joinSkip := none
        covered := false, blank := s.cfg.blank }
    let late : List OutputCell := match s.output.staging with
      | none => []
      | some g => [g.record.emptyCell s.laneByte true g.damaged true]
    ∃ t, exec (.referencePulse h levels) s = .next t
      ∧ t.clock = { tick := some h, ref := .locked, holdover := false, own := none
                    absence := s.startup.config.map (fun c => absenceTimeout c.rateCode) }
      ∧ (s.settingsOk → t.peers.roster
          = s.peers.roster.map (fun p => { p with lastHeard := some h, beacon := none }))
      ∧ (s.mayTransmit = true → s.bus.queue.length < 6 → s.panel.last = none ∨ s.panel.last = some levels →
          t.bus.hasNotice 0x13 (some h) s.emitOrZero ((h - (n + 1)).setWidth 16))
      ∧ (s.line.service.selects = true → t.line =
        { service := .lineup, emit := some (h - 1), delay := 1, source := none
          removed := s.line.removed
          history := [{ tick := h, emit := h - 1, delay := 1, removed := s.line.removed }]
          sessions := [], joining := none }
      ∧ t.marks.table = [] ∧ t.marks.reannounce = [] ∧ t.marks.cueCount = s.marks.cueCount
      ∧ t.ingest.directory = [] ∧ t.ingest.current = none ∧ t.ingest.writeQueue = []
      ∧ t.ingest.counters = s.ingest.counters
      ∧ t.memory.alloc = [] ∧ t.memory.tail = t.memory.head
      ∧ t.memory.free = Config.ringPages - s.memory.bad.length ∧ t.memory.reading = none
      ∧ t.memory.bad = s.memory.bad ∧ t.memory.fault = s.memory.fault
      ∧ t.peers.reference = none ∧ t.peers.estimate = none
      ∧ t.bus.counters.sessionIgnored
        = bumpBy s.bus.counters.sessionIgnored s.line.sessions.length
      ∧ t.output.staging = none ∧ (s.output.staging.isSome = true → t.output.buffer = [])
      ∧ t.output.link = s.output.link ++ late ++ [own.emptyCell s.laneByte true false false]
      ∧ t.output.counters = { k with
          missing := bumpBy k.missing (late.length + 1)
          damaged := if late.any (·.flags.damaged) then bump k.damaged else k.damaged
          lateRead := bumpBy k.lateRead late.length })
      ∧ (s.line.service = .test ∨ s.line.service = .bypass → s.line.sessions = [] →
        t.line = s.line ∧ t.marks.table = s.marks.table ∧ t.marks.cueCount = s.marks.cueCount
          ∧ t.marks.counters = s.marks.counters ∧ t.ingest = s.ingest ∧ t.memory = s.memory
          ∧ t.output = (if s.line.service = .bypass then (s.bypassTick h).output else s.output))
      ∧ t.startup = s.startup

/-- At the expiry of the absence timer the clock makes a tick of its own and enters HOLDOVER, with its
own tick timer running at one frame period. In HOLDOVER each expiry of the own tick timer is a tick
numbered one more, delivered and acted on as a tick from the reference is (both by the one operation
`State.tick`), and the timer starts again for the next frame period; the station counts on for as long as
it stays in HOLDOVER. -/
def Obligations.OwnTicksCountOn : Prop :=
  (∀ (s : State) (n : FrameNo) (levels : PanelLevels), s.clock.ref = .locked →
    s.clock.absence.isSome = true → s.clock.tick = some n →
    ∃ t, exec (.absenceTimerExpiry levels) s = .next t
      ∧ t.clock = { tick := some (n + 1), ref := .holdover, holdover := true, absence := none
                    own := some (framePeriod s.cfg.rateCode) }
      ∧ t.panel.tallies.service = true ∧ t.startup = s.startup ∧ t.pending = s.pending)
  ∧ ∀ (s : State) (n : FrameNo) (levels : PanelLevels), s.clock.tick = some n →
    (s.clock.ref = .holdover → s.clock.own.isSome = true →
      exec (.ownTickTimerExpiry levels) s
          = .next ((s.setClock { s.clock with own := some (framePeriod s.cfg.rateCode) }).tick (n + 1)
              levels)
        ∧ ∃ t, exec (.ownTickTimerExpiry levels) s = .next t
          ∧ t.clock = { s.clock with tick := some (n + 1), own := some (framePeriod s.cfg.rateCode) }
          ∧ t.startup = s.startup ∧ t.pending = s.pending)
    ∧ (s.clock.ref = .locked → s.startup.phase ≠ .held →
      exec (.referencePulse (n + 1) levels) s
        = .next ((s.setClock
            { tick := some n, ref := .locked, holdover := false, own := none
              absence := s.startup.config.map (fun c => absenceTimeout c.rateCode) }).tick (n + 1)
            levels))

/-- What no tick but a discontinuity changes: the start-up controller, the pages and the bad-page list,
the cell coming in and the write queue, the ingest counters and the run flag, the frame on the line and
the attempts at it, and the controller's tracking, objection run and flags but HELLO-owed. After a tick in
LINEUP or a delaying state the newest entry of the position history is that tick's, with the emit frame,
delay and removed total it left. -/
def Obligations.TickKeepsTheRest : Prop :=
  ∀ (c : Instr) (s : State) (h : FrameNo), s.tickMade c = some h →
    ∃ t, exec c s = .next t ∧ t.clock.tick = some h ∧ t.startup = s.startup
      ∧ t.pending = s.pending ∧ t.memory.pages = s.memory.pages ∧ t.memory.bad = s.memory.bad
      ∧ t.ingest.current = s.ingest.current ∧ t.ingest.writeQueue = s.ingest.writeQueue
      ∧ t.ingest.counters = s.ingest.counters ∧ t.ingest.ringFullRun = s.ingest.ringFullRun
      ∧ t.bus.activity = s.bus.activity ∧ t.bus.attempts = s.bus.attempts
      ∧ t.bus.tracking = s.bus.tracking ∧ t.bus.objectionRun = s.bus.objectionRun
      ∧ t.bus.suspect = s.bus.suspect ∧ t.bus.clashSeen = s.bus.clashSeen
      ∧ t.bus.counters.sent = s.bus.counters.sent
      ∧ (s.line.service.selects = true → ∃ e, t.line.emit = some e
          ∧ t.line.history.getLast?
            = some { tick := h, emit := e, delay := t.line.delay, removed := t.line.removed })

/-! ### The delay line -/

/-- In LINEUP the selection is the frame before the tick, step LIVE, whatever E was and whatever marks
are held; a LINEUP tick with no session due airs it with D 1, and the removed total and the mark table
stand. -/
def Obligations.LineupTickIsLive : Prop :=
  (∀ (s : State) (h : FrameNo), s.line.service = .lineup →
    s.select h = { emit := h - 1, step := .live, passed := 0, joinSkip := none })
  ∧ ∀ (c : Instr) (s : State) (h : FrameNo), s.tickMade c = some h → s.line.service = .lineup →
    s.noneDue h →
    ∃ t, exec c s = .next t ∧ t.line.service = .lineup ∧ t.line.emit = some (h - 1)
      ∧ t.line.delay = 1 ∧ t.line.removed = s.line.removed ∧ t.marks.table = s.marks.table
      ∧ t.line.sessions = s.line.sessions

/-- A BUILD tick with no session due: a hold where the tick number is a multiple of R, and else a step
to Next(e) that adds the dumped frames passed to the removed total; then FULL at the target; then the
marks that end at or before E + 1 retire. -/
def Obligations.BuildTickHoldsOrSteps : Prop :=
  ∀ (c : Instr) (s : State) (h e : FrameNo), s.tickMade c = some h → s.line.service = .build →
    s.line.emit = some e → s.noneDue h →
    ∃ t e', exec c s = .next t
      ∧ e' = (if h.toNat % s.cfg.build = 0 then e else nextFrame s.marks.table e)
      ∧ t.line.emit = some e' ∧ t.line.delay = h - e'
      ∧ t.line.removed = (if h.toNat % s.cfg.build = 0 then s.line.removed
          else s.line.removed + (e' - e - 1))
      ∧ t.line.service = (if (h - e').toNat = s.eff.target then .full else .build)
      ∧ t.marks.table = s.marks.table.filter (fun m => !atOrBefore m.endFrame (e' + 1))

/-- A FULL tick with no session due is a step to Next(e), ADVANCE when that is e + 1 and else DUMP-STEP
over k frames, which the removed total takes and the delay loses; a station that falls below the target
goes back to BUILD. -/
def Obligations.FullTickSteps : Prop :=
  ∀ (c : Instr) (s : State) (h e : FrameNo), s.tickMade c = some h → s.line.service = .full →
    s.line.emit = some e → s.noneDue h →
    let e' := nextFrame s.marks.table e
    let k := e' - e - 1
    s.select h = { emit := e', step := if e' = e + 1 then .advance else .dumpStep, passed := k
                   joinSkip := none }
    ∧ ∃ t, exec c s = .next t
      ∧ t.line.emit = some e' ∧ t.line.delay = h - e'
      ∧ (s.line.delay = (h - 1) - e → t.line.delay = s.line.delay - k)
      ∧ t.line.removed = s.line.removed + k
      ∧ t.line.service = (if (h - e').toNat < s.eff.target then .build else .full)
      ∧ t.marks.table = s.marks.table.filter (fun m => !atOrBefore m.endFrame (e' + 1))

/-- A DRAIN tick with no session due, C being Next(E) and N Next(C): a drop steps to N and leaves the
dropped frame C out of the removed total, any other tick steps to C; at a delay of 1 the station is in
LINEUP with the mark table cleared. -/
def Obligations.DrainTickDropsOrSteps : Prop :=
  ∀ (x : Instr) (s : State) (h e : FrameNo), s.tickMade x = some h → s.line.service = .drain →
    s.line.emit = some e → s.noneDue h →
    let c := nextFrame s.marks.table e
    let n := nextFrame s.marks.table c
    let drops := h.toNat % s.cfg.drain = 0 ∧ locked s.marks.table c = false
      ∧ atOrBefore n (h - 1) = true
    ∃ t e', exec x s = .next t ∧ (drops → e' = n) ∧ (¬ drops → e' = c)
      ∧ t.line.emit = some e' ∧ t.line.delay = h - e'
      ∧ (drops → t.line.removed = s.line.removed + ((c - e - 1) + (n - c - 1)))
      ∧ (¬ drops → t.line.removed = s.line.removed + (c - e - 1))
      ∧ (h - e' = 1 → t.line.service = .lineup ∧ t.marks.table = [])
      ∧ (h - e' ≠ 1 → t.line.service = .drain
        ∧ t.marks.table = s.marks.table.filter (fun m => !atOrBefore m.endFrame (e' + 1)))

/-- Next(x) is the first frame after x that is not dumped: it is not dumped, and every frame between is;
for a table whose spans are not empty and lie near x, in the order of R1. -/
def Obligations.NextIsFirstFrameNotDumped : Prop :=
  ∀ (table : List Mark) (x : FrameNo), spansNear table x →
    dumped table (nextFrame table x) = false ∧ before x (nextFrame table x) = true
      ∧ ∀ y, before x y = true → before y (nextFrame table x) = true → dumped table y = true

/-- A JOIN tick with no session due. The estimate is the reference's last beacon carried on to the tick,
and the target the first frame at or after it that is not dumped. With no estimate, or the target at C =
Next(e), the station steps to C; with the target at or before e it holds; with the target after C it skips
to it, the dumped frames passed joining the removed total and the others the join-skips counter. Then the
marks that end at or before E + 1 retire, the no-reference count counts a tick without an estimate, and a
limit reached abandons the join to DRAIN. That the reference and its beacon are those of the roster before
the tick ages it is the model's reading of R160 (notes/assumptions/6.md). -/
def Obligations.JoinTickFollowsEstimate : Prop :=
  ∀ (x : Instr) (s : State) (h e : FrameNo) (j : JoinRecord), s.tickMade x = some h →
    s.line.service = .join → s.line.emit = some e → s.line.joining = some j → s.noneDue h →
    let table := s.marks.table
    let c := nextFrame table e
    let beacon := s.peers.reference.bind (fun id => (findPeer s.peers.roster id).bind (·.beacon))
    let estimate := beacon.map (fun b => b.emit + (h - b.tick))
    let target := estimate.map (fun y => nextFrame table (y - 1))
    let holds := ∃ y, target = some y ∧ atOrBefore y e = true
    let skips := ∃ y, target = some y ∧ atOrBefore y e = false ∧ before c y = true
    let n := if estimate.isSome then 0 else j.noReference + 1
    let limit := n = 16 * s.cfg.beacon ∨ (h - j.entryTick).toNat = 64 * s.cfg.beacon
    ∃ t e', exec x s = .next t ∧ t.line.emit = some e' ∧ t.line.delay = h - e'
      ∧ (holds → e' = e ∧ t.line.removed = s.line.removed
          ∧ t.output.counters.holds = bump s.output.counters.holds)
      ∧ (skips → target = some e'
          ∧ let passed := (List.range (e' - e - 1).toNat).map (fun i => e + 1 + BitVec.ofNat 32 i)
            let dumps := (passed.filter (dumped table)).length
            t.line.removed = s.line.removed + BitVec.ofNat 32 dumps
              ∧ t.output.counters.joinSkips
                = bumpBy s.output.counters.joinSkips (passed.length - dumps))
      ∧ (¬ holds → ¬ skips → e' = c ∧ t.line.removed = s.line.removed + (c - e - 1)
          ∧ t.output.counters.holds = s.output.counters.holds
          ∧ t.output.counters.joinSkips = s.output.counters.joinSkips)
      ∧ t.marks.table = table.filter (fun m => !atOrBefore m.endFrame (e' + 1))
      ∧ (limit → t.line.service = .drain ∧ t.line.joining = none ∧ t.peers.reference = none
          ∧ t.peers.estimate = none)
      ∧ (¬ limit → t.line.service = .join ∧ t.peers.estimate = estimate
          ∧ t.line.joining = some { entryTick := j.entryTick, noReference := n })

/-- The schedule's order at a tick in LINEUP or a delaying state with no session due: E never moves back;
in a delaying state the frame before the tick is not dumped and E is at or before it, a frame newly chosen
is not dumped, and no locked frame is passed over but in JOIN. For dumps and a beacon of the reference
that lie near the tick, in the order of R1. -/
def Obligations.SelectionKeepsOrder : Prop :=
  ∀ (c : Instr) (s : State) (h e : FrameNo), s.tickMade c = some h → s.line.emit = some e →
    s.noneDue h → s.clockOk → s.settingsOk → s.spansOk → s.scheduleOk → s.delayOk →
    s.dumpsClamped → s.dumpsNear → s.referenceNear →
    ∃ t e', exec c s = .next t ∧ t.line.emit = some e' ∧ (e' = e ∨ before e e' = true)
      ∧ (s.line.service.delaying = true → dumped s.marks.table (h - 1) = false
        ∧ atOrBefore e' (h - 1) = true ∧ (e' ≠ e → dumped s.marks.table e' = false)
        ∧ ∀ y, before e y = true → before y e' = true → locked s.marks.table y = true →
            s.line.service = .join)

/-- The delay stays in its bounds at every step: 1 in LINEUP, from 1 to T_eff in the delaying states, and
below T_eff in BUILD; and no live DUMP ends after the current tick number. For dumps near the tick number,
in the order of R1, and a join reference whose last beacon shows a delay in the same bounds, as the beacon
of every station in step does. -/
def Obligations.ScheduleBoundsKept : Prop :=
  ∀ s t : State, s.clockOk → s.phaseOk → s.settingsOk → s.joinOk → s.spansOk → s.scheduleOk →
    s.dumpsNear → s.referenceNear → s.delayOk → s.dumpsClamped → step s = .next t →
    t.delayOk ∧ t.dumpsClamped

/-- The limits of a join: JOIN_LIMIT abandons the join to DRAIN when the no-reference count has come to
16 B or the time in JOIN to 64 B, and otherwise changes nothing; the marks, the schedule, the cue count
and the history are kept. That the command tests the limits at the tick number standing is the model's
choice (notes/assumptions/5.md). -/
def Obligations.JoinLimitAbandonsJoin : Prop :=
  ∀ (s : State) (h : FrameNo) (j : JoinRecord), s.clock.tick = some h → s.line.service = .join →
    s.line.joining = some j →
    if j.noReference = 16 * s.cfg.beacon ∨ (h - j.entryTick).toNat = 64 * s.cfg.beacon then
      ∃ t, exec .joinLimit s = .next t
        ∧ t.line = { s.line with service := .drain, joining := none }
        ∧ t.peers = { s.peers with reference := none, estimate := none }
        ∧ t.marks = s.marks ∧ t.ingest = s.ingest ∧ t.memory = s.memory ∧ t.output = s.output
        ∧ t.startup = s.startup ∧ t.clock = s.clock
        ∧ (s.startup.id ≠ 0 → s.bus.queue.length < 8 → ∃ f ∈ t.bus.queue, f.msg = .notice
            { code := 0x0F, tick := h.setWidth 16, frame := s.emitOrZero
              detail := (if j.noReference = 16 * s.cfg.beacon then 1 else 0)
                + (if (h - j.entryTick).toNat = 64 * s.cfg.beacon then 2 else 0) })
    else exec .joinLimit s = .next s

/-! ### Sessions and joining -/

/-- A received SESSION-START or SESSION-END: not taken in TEST; refused or ignored and counted with no
tick number, in BYPASS, and when it names a tick more than 250 ahead; taken as timely with the named
tick, or, at or before the current tick number, as late with the next, and put in the list in order of
action tick. A named tick exactly 2^31 from the current one fits no row of R65 and has no effect, which is
the model's choice (notes/assumptions/31.md). -/
def Obligations.SessionFrameHandled : Prop :=
  ∀ (s : State) (kind : SessionKind) (a : FrameNo) (src : StationId) (straps : StationId)
    (listed : List Page), src ≠ 0 → s.hasReadGood (lineFrame src (kind.msg a) 0) →
    s.line.sessions.length < 4 → (∀ x ∈ s.line.sessions, ¬ (x.kind = kind ∧ x.applyAt = a)) →
    ∃ t, exec (.objectionSlotEnd false straps listed) s = .next t
      ∧ t.line.service = s.line.service ∧ t.line.emit = s.line.emit
      ∧ (if s.line.service = .test then
          t.line.sessions = s.line.sessions
            ∧ t.bus.counters.sessionIgnored = s.bus.counters.sessionIgnored
        else match s.clock.tick with
        | none => t.line.sessions = s.line.sessions
            ∧ t.bus.counters.sessionIgnored = bump s.bus.counters.sessionIgnored
        | some h =>
          if s.line.service = .bypass then
            t.line.sessions = s.line.sessions
              ∧ t.bus.counters.sessionIgnored = bump s.bus.counters.sessionIgnored
          else if before h a = true then
            if (a - h).toNat ≤ 250 then
              t.line.sessions = insertSession
                { kind := kind, applyAt := a, action := a, origin := src, late := false }
                s.line.sessions
            else t.line.sessions = s.line.sessions
              ∧ t.bus.counters.sessionIgnored = bump s.bus.counters.sessionIgnored
          else if atOrBefore a h = true then
            t.line.sessions = insertSession
              { kind := kind, applyAt := a, action := h + 1, origin := src, late := true }
              s.line.sessions
          else t.line.sessions = s.line.sessions
            ∧ t.bus.counters.sessionIgnored = s.bus.counters.sessionIgnored)

/-- A tick at which session entries are due does what it does with the first of them taken just before:
the entry leaves the list; a SESSION-START begins a session from LINEUP, with the mark table, the
re-announce list, the removed total and the cue count cleared, and resumes it from DRAIN; a SESSION-END
takes BUILD, FULL and JOIN to DRAIN; any other is ignored and counted; a late entry acted on forms its
SESSION-LATE notice. -/
def Obligations.DueSessionTaken : Prop :=
  ∀ (c : Instr) (s : State) (h : FrameNo) (x : SessionEntry) (rest : List SessionEntry),
    s.tickMade c = some h → s.line.sessions.filter (fun y => decide (y.action = h)) = x :: rest →
    let line := { s.line with sessions := s.line.sessions.erase x }
    let acted (u : State) : State :=
      if x.late then u.notice 0x14 (some h) x.applyAt
        (bytePair (if x.kind = .start then 0x06 else 0x07) (x.origin.setWidth 8))
      else u
    let ignored := (s.setLine line).setBus { s.bus with counters :=
      { s.bus.counters with sessionIgnored := bump s.bus.counters.sessionIgnored } }
    exec c s = exec c
      (match x.kind, s.line.service with
        | .start, .lineup =>
          if s.line.emit = none then ignored
          else acted ((s.setLine { line with service := .build, removed := 0 }).setMarks
            { s.marks with table := [], reannounce := [], cueCount := 0 })
        | .start, .drain =>
          acted (s.setLine { line with
            service := if s.line.delay.toNat = s.eff.target then .full else .build })
        | .stop, .build | .stop, .full => acted (s.setLine { line with service := .drain })
        | .stop, .join =>
          acted ((s.setLine { line with service := .drain, joining := none }).setPeers
            { s.peers with reference := none, estimate := none })
        | _, _ => ignored)

/-- The two entries to JOIN. A beacon of BUILD, FULL or DRAIN with the station's digest, of a sender in the
roster or not yet in it, takes a station in LINEUP, with auto-join on and E present, to JOIN, or straight
through it when it converges and its sender is the reference: every parked mark becomes live, a DUMP ending
no later than the tick number (and at it also from exactly 2^31 away, the model's choice,
notes/assumptions/31.md) and a start at or before E moved to E + 1, or leaves as TOO-LATE when that empties
it; with auto-join off, or E none, the station stays as it was. A REALIGN for the station takes BUILD and
FULL to JOIN with the marks kept, and is ignored and counted in the other states but TEST. At the entry the
reference is the lowest station id of the roster that may lead. -/
def Obligations.JoinEntered : Prop :=
  (∀ (s : State) (m : BeaconMsg) (src : StationId) (h : FrameNo) (straps : StationId)
    (listed : List Page), src ≠ 0 → s.hasReadGood (lineFrame src (.beacon m) 0) →
    s.line.service = .lineup → s.clock.tick = some h →
    (s.peers.roster.map (·.id)).Nodup → marksOk s.marks.table → s.countersOk →
    m.digest = s.eff.digest → m.service = 2 ∨ m.service = 3 ∨ m.service = 4 →
    ∃ t, exec (.objectionSlotEnd false straps listed) s = .next t
      ∧ (s.cfg.autoJoin = false ∨ s.line.emit = none → t.line = s.line ∧ t.marks = s.marks
          ∧ t.peers.reference = s.peers.reference)
      ∧ ∀ e, s.cfg.autoJoin = true → s.line.emit = some e →
        let live (x : Mark) : Mark :=
          { x with
            start := if atOrBefore x.start e = true then e + 1 else x.start
            fin := match x.kind, x.fin with
              | .dump, .closed y => .closed (earlier h y)
              | _, f => f
            trimmed := x.trimmed || atOrBefore x.start e
            appliedAt := some h }
        let empty (x : Mark) : Bool := atOrBefore (live x).endFrame (live x).start
        let leads := ∀ q ∈ (s.hear src).peers.roster, q.mayLead s.eff.digest → src.toNat ≤ q.id.toNat
        (∀ y, y ∈ t.marks.table ↔ ∃ x ∈ s.marks.table, live x = y ∧ empty x = false)
          ∧ t.marks.counters = { s.marks.counters with
              tooLate := bumpBy s.marks.counters.tooLate (s.marks.table.filter empty).length
              trimmed := bumpBy s.marks.counters.trimmed (s.marks.table.filter
                (fun x => atOrBefore x.start e && !empty x)).length }
          ∧ (¬ (leads ∧ s.convergesWith m) →
              t.line = { s.line with service := .join, joining := some { entryTick := h, noReference := 0 } })
          ∧ (∀ x, historyAt s.line.history m.tick = some x → leads → s.convergesWith m →
              t.line = s.joinedLine m x ∧ t.marks.cueCount = m.cueCount))
  ∧ ∀ (s : State) (src : StationId) (h : FrameNo) (straps : StationId) (listed : List Page), src ≠ 0 →
    s.startup.id ≠ 0 → s.hasReadGood (lineFrame src .realign s.startup.id) → s.clock.tick = some h →
    ∃ t, exec (.objectionSlotEnd false straps listed) s = .next t ∧ t.marks = s.marks
      ∧ (if s.line.service = .build ∨ s.line.service = .full then
          t.line = { s.line with service := .join, joining := some { entryTick := h, noReference := 0 } }
            ∧ t.bus.counters.sessionIgnored = s.bus.counters.sessionIgnored
            ∧ (match t.peers.reference with
              | some id => (∃ p ∈ t.peers.roster, p.id = id ∧ p.mayLead s.eff.digest)
                  ∧ ∀ q ∈ t.peers.roster, q.mayLead s.eff.digest → id.toNat ≤ q.id.toNat
              | none => ∀ q ∈ t.peers.roster, ¬ q.mayLead s.eff.digest)
        else t.line = s.line ∧ t.bus.counters.sessionIgnored
          = if s.line.service = .test then s.bus.counters.sessionIgnored
            else bump s.bus.counters.sessionIgnored)

/-- A beacon in JOIN from the station of the lowest id that may lead, which makes it the reference. With
no history entry of its tick it is stale and counted; with an entry of the same emit frame and delay the
join completes: the state carried is taken, FULL for BUILD at the target, the removed total is the
reference's and what the station has passed over since, the history is moved with it, the cue count is the
beacon's, the reference and estimate become none and JOIN-DONE is sent; otherwise the join goes on. -/
def Obligations.ConvergingBeaconCompletesJoin : Prop :=
  ∀ (s : State) (m : BeaconMsg) (src : StationId) (p : Peer) (straps : StationId)
    (listed : List Page), src ≠ 0 → s.hasReadGood (lineFrame src (.beacon m) 0) →
    s.line.service = .join → findPeer s.peers.roster src = some p →
    (s.peers.roster.map (·.id)).Nodup → m.digest = s.eff.digest →
    m.service = 2 ∨ m.service = 3 ∨ m.service = 4 →
    (∀ q ∈ s.peers.roster, q.mayLead s.eff.digest → src.toNat ≤ q.id.toNat) →
    ∃ t, exec (.objectionSlotEnd false straps listed) s = .next t
      ∧ t.marks.table = s.marks.table
      ∧ (match historyAt s.line.history m.tick with
        | none => t.line = s.line ∧ t.peers.reference = some src ∧ t.marks = s.marks
            ∧ t.peers.counters.staleBeacons = bump s.peers.counters.staleBeacons
        | some x =>
          t.peers.counters = s.peers.counters
            ∧ (if x.emit = m.emit ∧ x.delay = m.delay.setWidth 32 then
                t.line = s.joinedLine m x ∧ t.marks = { s.marks with cueCount := m.cueCount }
                  ∧ t.peers.reference = none ∧ t.peers.estimate = none
                  ∧ (s.startup.id ≠ 0 → s.bus.queue.length < 7 →
                      t.bus.hasNotice 0x0E s.clock.tick s.emitOrZero (bytePair 0 (src.setWidth 8)))
              else t.line = s.line ∧ t.peers.reference = some src ∧ t.marks = s.marks))

/-! ### The mark table -/

/-- A MARK-OPEN received in LINEUP, where it is parked, or in a delaying state, where it is live, from
another station or the station's own, in the order of its tests: of a key held it is ignored, and a difference counted as a
conflict; with its end at or before its start, or with a span that the steps leave empty (an open parked
one apart), it is TOO-LATE; at 32 records it is refused; else its record joins the table, with the lane
set of a DUMP or LOCK forced, a live start at or before E moved to E + 1, and the end limited: a DUMP's to
2000 frames, and live to the tick number, a COVER's and a LOCK's to its greatest length, which an open one
is read with from the start received. Before these tests one that is no re-announcement is held against the
sequence expected of its origin, if the roster has an entry for it: another one is a gap, counted and
noticed, and the one after it is expected next. The model's choices in it: frames too far apart for R1 to
order (notes/assumptions/31.md, 39.md), a mark parked before the first tick has no applied-at tick
(20.md), and the detail of MARK-GAP names the origin without 80H (29.md). -/
def Obligations.MarkOpenApplied : Prop :=
  ∀ (s : State) (o : MarkOpenMsg) (src : StationId) (e h : FrameNo) (straps : StationId)
    (listed : List Page), src ≠ 0 →
    s.hasReadGood (lineFrame src (.markOpen o) 0)
      ∨ s.bus.activity = .sending (lineFrame src (.markOpen o) 0) →
    s.line.service.selects = true → (o.kind = .dump → o.fin ≠ none) →
    (s.line.service.delaying = true → s.line.emit = some e ∧ s.clock.tick = some h) →
    let live := s.line.service.delaying
    let start := if live = true ∧ atOrBefore o.start e = true then e + 1 else o.start
    let longest := BitVec.ofNat 32 (o.kind.longest s.cfg)
    let limited (x : FrameNo) : FrameNo :=
      if o.kind = .dump ∧ live = true then earlier h (earlier (start + longest) (earlier h x))
      else earlier (start + longest) x
    let fin := match o.fin with
      | some x => .closed (limited x)
      | none => .openUntil (o.start + longest)
    let m : Mark :=
      { key := { origin := o.origin, seq := o.seq, orphan := o.orphan }, kind := o.kind
        lanes := if o.kind = .cover then o.lanes else 0xFF, start := start, fin := fin
        trimmed := decide (start ≠ o.start), appliedAt := s.clock.tick }
    let entry := findPeer (s.hear src).peers.roster o.origin
    let missed : Option Byte := if o.reannounced then none else
      (entry.bind (·.expected)).filter (fun x => decide (x ≠ o.seq))
    let was := s.marks.counters
    let k := { was with gaps := if missed.isSome then bump was.gaps else was.gaps }
    let forced := if o.kind ≠ .cover ∧ o.lanes ≠ 0xFF then bump k.laneForced else k.laneForced
    let room := s.startup.id ≠ 0 ∧ s.bus.queue.length < 6
      ∧ (s.bus.activity.isSending = true → s.marks.reannounce = [])
    ∃ t, exec (.objectionSlotEnd false straps listed) s = .next t
      ∧ t.marks.cueCount = s.marks.cueCount + 1 ∧ t.marks.nextSeq = s.marks.nextSeq
      ∧ t.line = s.line ∧ t.memory = s.memory ∧ t.ingest = s.ingest ∧ t.output = s.output
      ∧ t.clock = s.clock ∧ t.startup = s.startup
      ∧ findPeer t.peers.roster o.origin = entry.map (fun p =>
          if o.reannounced then p else { p with expected := some (o.seq + 1) })
      ∧ (∀ q, q ≠ o.origin → findPeer t.peers.roster q = findPeer (s.hear src).peers.roster q)
      ∧ (∀ x, missed = some x → room → t.bus.hasNotice 0x05 s.clock.tick (x.setWidth 32)
          (bytePair (o.origin.setWidth 8) o.seq))
      ∧ (match findMark s.marks.table m.key with
        | some x =>
          let same := x.kind = o.kind ∧ (x.kind = .cover → x.lanes = o.lanes)
            ∧ (match x.fin, o.fin with
              | .openUntil a, none => o.start = a - BitVec.ofNat 32 (x.kind.longest s.cfg)
              | .closed y, some z => y = z ∧ (x.trimmed = false → o.start = x.start)
              | _, _ => False)
          t.marks.table = s.marks.table
            ∧ ((x.isOpen = true → x.kind ≠ .dump) →
              (same → t.marks.counters = k)
              ∧ (¬ same → t.marks.counters = { k with conflicts := bump k.conflicts }))
        | none =>
          if (∃ x, o.fin = some x ∧ atOrBefore x o.start = true)
              ∨ (atOrBefore m.endFrame start = true ∧ (live = true ∨ o.fin ≠ none)) then
            t.marks.table = s.marks.table
              ∧ t.marks.counters = { k with laneForced := forced, tooLate := bump k.tooLate }
              ∧ (room → t.bus.hasNotice 0x03 s.clock.tick o.start m.key.detail)
          else if 32 ≤ s.marks.table.length then
            t.marks.table = s.marks.table
              ∧ t.marks.counters = { k with laneForced := forced, refusedFull := bump k.refusedFull }
              ∧ (room → t.bus.hasNotice 0x02 s.clock.tick o.start m.key.detail)
          else
            t.marks.table = insertMark m s.marks.table
              ∧ t.marks.counters = { k with
                laneForced := forced, applied := bump k.applied
                trimmed := if start = o.start then k.trimmed else bump k.trimmed }
              ∧ (start ≠ o.start → room → t.bus.hasNotice 0x04 s.clock.tick start m.key.detail))

/-- A MARK-CLOSE received in LINEUP or a delaying state closes an open COVER or LOCK of its key: at the
latest of the end received, the start + 1 and, live, E + 1, limited to the auto-close frame. A MARK-RETRACT
takes a parked record, and a live one not yet aired, out of the table, and closes any other at E + 1. Every
other record stands, and none is moved in the table order. With no such record the frame is ignored and
counted, with its notice. The latest of frames too far apart for R1 to order is the model's choice
(notes/assumptions/31.md, 39.md). -/
def Obligations.MarkClosedOrRetracted : Prop :=
  ∀ (s : State) (origin : StationId) (seq : Byte) (fin e : FrameNo) (src : StationId)
    (straps : StationId) (listed : List Page), src ≠ 0 → s.line.service.selects = true →
    (s.line.service.delaying = true → s.line.emit = some e) →
    let key : MarkKey := { origin := origin, seq := seq, orphan := false }
    let live := s.line.service.delaying
    let k := s.marks.counters
    let room := s.startup.id ≠ 0 ∧ s.bus.queue.length < 7
    (s.hasReadGood (lineFrame src (.markClose origin seq fin) 0) →
      ∃ t, exec (.objectionSlotEnd false straps listed) s = .next t
        ∧ t.marks.cueCount = s.marks.cueCount + 1 ∧ t.line = s.line ∧ t.memory = s.memory
        ∧ (∀ q, q ≠ key → findMark t.marks.table q = findMark s.marks.table q)
        ∧ t.marks.table.map (·.key) = s.marks.table.map (·.key)
        ∧ (∀ m a, findMark s.marks.table key = some m → m.fin = .openUntil a → m.kind ≠ .dump →
            let floor := if live then later (m.start + 1) (e + 1) else m.start + 1
            t.marks.counters = k ∧ findMark t.marks.table key
              = some { m with fin := .closed (earlier a (later floor fin)) })
        ∧ ((∀ m, findMark s.marks.table key = some m → m.isOpen = false ∨ m.kind = .dump) →
            findMark t.marks.table key = findMark s.marks.table key
              ∧ t.marks.counters = { k with closesIgnored := bump k.closesIgnored }
              ∧ (room → t.bus.hasNotice 0x06 s.clock.tick fin key.detail)))
    ∧ (s.hasReadGood (lineFrame src (.markRetract origin seq) 0) →
      ∃ t, exec (.objectionSlotEnd false straps listed) s = .next t
        ∧ t.marks.cueCount = s.marks.cueCount + 1 ∧ t.line = s.line ∧ t.memory = s.memory
        ∧ (∀ q, q ≠ key → findMark t.marks.table q = findMark s.marks.table q)
        ∧ t.marks.table.map (·.key) = (s.marks.table.map (·.key)).filter (fun q =>
            decide (q ≠ key) || (findMark t.marks.table key).isSome)
        ∧ (match findMark s.marks.table key with
          | some m =>
            t.marks.counters = k
              ∧ findMark t.marks.table key
                = if live = true ∧ before m.start (e + 1) = true then
                    some { m with fin := .closed (e + 1) }
                  else none
          | none =>
            findMark t.marks.table key = none
              ∧ t.marks.counters = { k with retractsLate := bump k.retractsLate }
              ∧ (room → t.bus.hasNotice 0x07 s.clock.tick s.emitOrZero key.detail)))

/-- The cue count rises by one, modulo 65,536, for each MARK-OPEN, MARK-CLOSE and MARK-RETRACT received
in LINEUP or a delaying state, the station's own among them, whatever the table does with it, and does not
for one received in TEST or BYPASS, or to which a station objected. -/
def Obligations.CueCountCountsMarkFrames : Prop :=
  ∀ (s : State) (m : CueMsg) (src : StationId) (driven : Bool) (straps : StationId)
    (listed : List Page), src ≠ 0 →
    s.hasReadGood (lineFrame src m 0) ∨ s.bus.activity = .sending (lineFrame src m 0) →
    (match m with
      | .markOpen _ | .markClose _ _ _ | .markRetract _ _ => True
      | _ => False) →
    ∃ t, exec (.objectionSlotEnd driven straps listed) s = .next t
      ∧ t.marks.cueCount = (if driven = false ∧ s.line.service.selects = true
          then s.marks.cueCount + 1 else s.marks.cueCount)
      ∧ (driven = true ∨ s.line.service.selects = false → t.marks.table = s.marks.table)

/-- A HELLO in LINEUP or a delaying state. At one from another station every record of its origin becomes
an orphan; where an orphan of that origin and sequence is held already, the later start stays, or of equal
starts the newly orphaned one (so too of starts exactly 2^31 apart, the model's choice,
notes/assumptions/31.md), and the conflict is counted; no other record changes. At the station's own the
table stands and no HELLO is owed any longer, where none is queued behind it. At either a station that is no monitor lists the keys of its
own marks and of every orphan for re-announcement, by applied-at tick, a record with none before all others
by the model's choice (notes/assumptions/20.md), and then by table order, and queues the frames at the
list's front while the queue would take them. -/
def Obligations.HelloOrphansAndReannounces : Prop :=
  (∀ (s : State) (m : HelloMsg) (src : StationId) (straps : StationId) (listed : List Page), src ≠ 0 →
    s.hasReadGood (lineFrame src (.hello m) 0) → s.line.service.selects = true →
    marksOk s.marks.table → s.countersOk →
    let clashes := (s.marks.table.filter (fun x => decide (x.key.origin = src) && !x.key.orphan
      && (findMark s.marks.table { x.key with orphan := true }).isSome)).length
    ∃ t served, exec (.objectionSlotEnd false straps listed) s = .next t
      ∧ (∀ q : MarkKey, q.origin ≠ src → findMark t.marks.table q = findMark s.marks.table q)
      ∧ (∀ seq, findMark t.marks.table { origin := src, seq := seq, orphan := false } = none
          ∧ let key : MarkKey := { origin := src, seq := seq, orphan := true }
            findMark t.marks.table key
              = match findMark s.marks.table { key with orphan := false },
                    findMark s.marks.table key with
                | none, held => held
                | some x, none => some { x with key := key }
                | some x, some held =>
                  if before x.start held.start then some held else some { x with key := key })
      ∧ t.marks.counters = { s.marks.counters with conflicts := bumpBy s.marks.counters.conflicts clashes }
      ∧ t.marks.cueCount = s.marks.cueCount ∧ t.marks.nextSeq = s.marks.nextSeq ∧ t.line = s.line
      ∧ (s.startup.id = 0 → t.marks.reannounce = s.marks.reannounce)
      ∧ (s.startup.id ≠ 0 → s.reannouncesIn t served))
  ∧ ∀ (s : State) (m : HelloMsg) (straps : StationId) (listed : List Page), s.startup.id ≠ 0 →
    s.bus.activity = .sending (lineFrame s.startup.id (.hello m) 0) → s.line.service.selects = true →
    marksOk s.marks.table →
    ∃ t served, exec (.objectionSlotEnd false straps listed) s = .next t
      ∧ t.marks.table = s.marks.table ∧ t.marks.counters = s.marks.counters
      ∧ t.marks.cueCount = s.marks.cueCount ∧ t.marks.nextSeq = s.marks.nextSeq ∧ t.line = s.line
      ∧ ((∀ f ∈ s.bus.queue.drop 1, f.msg.isHello = false) → t.bus.helloOwed = false)
      ∧ s.reannouncesIn t served

/-- The mark table never holds more than 32 records, nor two with one key; its records, near one frame in
the order of R1, stand in table order; and their spans keep their bounds: none empty, none longer than its
kind allows, the lane set of a DUMP and a LOCK that of all lanes, no live one ending before E + 1. The
settings that the bounds are taken from are in their ranges. -/
def Obligations.MarkTableKept : Prop :=
  ∀ s t : State, step s = .next t →
    (marksOk s.marks.table → marksOk t.marks.table
      ∧ ∀ x, startsNear s.marks.table x → startsNear t.marks.table x → tableOrdered s.marks.table →
          tableOrdered t.marks.table)
    ∧ (s.phaseOk → s.settingsOk → s.spansOk → t.spansOk)

/-! ### Ingest and the delay memory -/

/-- A header in LINEUP or a delaying state. A current cell whose stored bytes have not all come is cut short
first: its bytes are entered as a last page write, its entry is DAMAGED and SHORT, and it is counted; in
every case there is then no current cell. With no current cell, a header is dropped and counted at the first
test it fails, with nothing else changed: HEADER-BAD, WRONG-LANE, LATE, AHEAD, DUP; and RING-FULL for a slot
still held, a full list, or too few free pages, which sets the run flag and forms its notice if that was
clear, a cell longer than max cell pages being counted as truncated before. That a cell cut at a page
boundary enters a last page write of no bytes is the model's reading (notes/assumptions/16.md). -/
def Obligations.HeaderCutsAndDrops : Prop :=
  ∀ (s : State) (header : List Byte), s.startup.phase ≠ .held → s.line.service.selects = true →
    (∀ c, s.ingest.current = some c →
      exec (.cellHeaderArrival header) s = exec (.cellHeaderArrival header) (s.setIngest
        (if c.received < c.stored then
          { s.ingest with
            current := none
            writeQueue := s.ingest.writeQueue ++
              [{ frame := c.frame, first := c.first, position := c.received / 65536 + 1
                 bytes := c.gathered, last := true }]
            directory := if describes s.ingest.directory c.frame c.first then
                dirSet s.ingest.directory (dirIndex c.frame)
                  { dirGet s.ingest.directory (dirIndex c.frame) with state := .damaged, short := true }
              else s.ingest.directory
            counters := { s.ingest.counters with short := bump s.ingest.counters.short } }
        else { s.ingest with current := none })))
    ∧ (s.ingest.current = none →
      let b := readCellHeader header
      let entry := dirGet s.ingest.directory (b.frame.toNat % 8192)
      let own := entry.tag = b.frame.toNat / 8192
      let stored := min b.length (s.cfg.cellPages * 65536)
      let count := max 1 ((stored + 65535) / 65536)
      let k := s.ingest.counters
      let drop (k' : IngestCounters) : Host.Outcome State Fault Refusal :=
        .next (s.setIngest { s.ingest with counters := k' })
      let full (cause : BitVec 16) : Host.Outcome State Fault Refusal :=
        let u := s.setIngest { s.ingest with
          ringFullRun := true
          counters := { k with
            ringFull := bump k.ringFull
            truncated := if s.cfg.cellPages * 65536 < b.length then bump k.truncated
              else k.truncated } }
        .next (if s.ingest.ringFullRun then u else u.notice 0x11 s.clock.tick b.frame cause)
      if b.good = false then
        exec (.cellHeaderArrival header) s = drop { k with headerBad := bump k.headerBad }
      else if b.lane ≠ s.cfg.lane then
        exec (.cellHeaderArrival header) s = drop { k with wrongLane := bump k.wrongLane }
      else if ∃ e, s.line.emit = some e ∧ before e b.frame = false then
        exec (.cellHeaderArrival header) s = drop { k with late := bump k.late }
      else if ∀ h, s.clock.tick = some h → atOrBefore b.frame (h + 1) = false then
        exec (.cellHeaderArrival header) s = drop { k with ahead := bump k.ahead }
      else if own ∧ (entry.state = .writing ∨ entry.state = .complete) then
        exec (.cellHeaderArrival header) s = drop { k with dup := bump k.dup }
      else if ¬ own ∧ (entry.state = .writing ∨ entry.state = .complete ∨ entry.state = .damaged) then
        exec (.cellHeaderArrival header) s = full 3
      else if 8192 ≤ s.memory.alloc.length then exec (.cellHeaderArrival header) s = full 2
      else if s.memory.free < count then exec (.cellHeaderArrival header) s = full 1
      else s.verdict b = .accept)

/-- A header that passes every test enters its cell: the directory entry at the frame's index is
written over, the cell is the current cell, the stored counter rises, the run flag clears, and the pages
are granted. -/
def Obligations.AcceptedCellEntered : Prop :=
  ∀ (s : State) (header : List Byte),
    let h := readCellHeader header
    let stored := min h.length (s.cfg.cellPages * 65536)
    let count := max 1 (stored / 65536 + if stored % 65536 = 0 then 0 else 1)
    s.startup.phase ≠ .held → s.line.service.selects = true → s.ingest.current = none →
    s.verdict h = .accept →
    ∃ t, exec (.cellHeaderArrival header) s = .next t
      ∧ dirGet t.ingest.directory (h.frame.toNat % 8192)
        = { tag := h.frame.toNat / 8192, state := .writing, first := s.memory.grantFirst
            count := count, length := stored
            truncated := decide (s.cfg.cellPages * 65536 < h.length), short := false }
      ∧ (∀ i, i ≠ h.frame.toNat % 8192 →
          dirGet t.ingest.directory i = dirGet s.ingest.directory i)
      ∧ t.ingest.current = some
        { frame := h.frame, first := s.memory.grantFirst, count := count, stored := stored
          received := 0, gathered := [] }
      ∧ t.ingest.counters.stored = bump s.ingest.counters.stored
      ∧ t.ingest.ringFullRun = false
      ∧ t.memory.alloc = s.memory.alloc
          ++ [{ frame := h.frame, first := s.memory.grantFirst, count := count }]
      ∧ t.memory.free = s.memory.free - count ∧ t.memory.pages = s.memory.pages
      ∧ t.memory.bad = s.memory.bad ∧ t.line = s.line ∧ t.marks = s.marks ∧ t.bus = s.bus

/-- Payload bytes in LINEUP or a delaying state, for a current cell gathered as R88 says: it stays so, its
count of stored bytes rises by what arrived up to the stored length, and no byte is lost or made: the bytes
of the page writes entered and those still gathered are, in order, those gathered before and those taken.
A page write is entered at every 65,536 bytes and when the stored bytes have all come, at the page's
position in the cell, full but for the last, which is the one of the final stored byte. -/
def Obligations.PayloadBytesGathered : Prop :=
  ∀ (s : State) (c : CurrentCell) (bytes : List Byte), s.startup.phase ≠ .held →
    s.line.service.selects = true → s.ingest.current = some c → c.gatherOk →
    ∃ t c' entered, exec (.cellPayloadBytes bytes) s = .next t ∧ t.ingest.current = some c'
      ∧ t.ingest.writeQueue = s.ingest.writeQueue ++ entered
      ∧ c'.gatherOk ∧ c'.received = min c.stored (c.received + bytes.length)
      ∧ entered.flatMap (·.bytes) ++ c'.gathered
          = c.gathered ++ bytes.take (c.stored - c.received)
      ∧ (∀ i w, entered[i]? = some w → w.frame = c.frame ∧ w.first = c.first
          ∧ w.position = c.received / 65536 + 1 + i
          ∧ (w.last = true ↔ c'.received = c.stored ∧ i + 1 = entered.length)
          ∧ (w.last = false → w.bytes.length = 65536) ∧ w.bytes.length ≤ 65536)
      ∧ c'.frame = c.frame ∧ c'.first = c.first ∧ c'.stored = c.stored
      ∧ t.ingest.directory = s.ingest.directory ∧ t.memory = s.memory ∧ t.line = s.line
      ∧ t.output = s.output ∧ t.bus = s.bus

/-- The completion of the page write at the front of the queue: its page reads back as written under its
frame, every other page as before. The last of a cell makes its own WRITING entry COMPLETE, where the
cell's frame is at or after the retention point or there is none, and freeing is tried: the cells at the
front of the allocation list that are not needed leave it. The model's choices in it: a page is held as its
bytes and the frame they were written under (notes/assumptions/7.md), and the page written is the one that
the walk from the cell's first page gives over the bad-page list as it stands at the completion (17.md). -/
def Obligations.PageWriteStoresPage : Prop :=
  ∀ (s : State) (w : PageWrite) (rest : List PageWrite) (p : Page),
    s.ingest.writeQueue = w :: rest →
    pageAt s.memory.bad w.first w.position w.position = some p →
    ∃ t, exec .pageWriteComplete s = .next t ∧ t.ingest.writeQueue = rest
      ∧ sparseGet t.memory.pages p.toNat = some { frame := w.frame, bytes := w.bytes }
      ∧ (∀ i, i ≠ p.toNat → sparseGet t.memory.pages i = sparseGet s.memory.pages i)
      ∧ (w.last = false → t.ingest.directory = s.ingest.directory ∧ t.memory.alloc = s.memory.alloc)
      ∧ (w.last = true → describes s.ingest.directory w.frame w.first = true →
          (dirGet s.ingest.directory (dirIndex w.frame)).state = .writing →
          (∀ r, s.line.retention = some r → atOrBefore r w.frame = true) →
          (dirGet t.ingest.directory (dirIndex w.frame)).state = .complete)
      ∧ (w.last = true → t.memory.alloc = s.memory.alloc.dropWhile (fun a => !t.needed a))
      ∧ t.memory.bad = s.memory.bad ∧ t.line = s.line ∧ t.marks = s.marks ∧ t.bus = s.bus
      ∧ t.output = s.output

/-- The ring's law. The tail is the first page of the oldest cell, the free count is that of the good
pages outside the tail up to the head, each cell lies between its first page and the next cell's, and a
cell being written, complete or under read still walks to the pages it was granted: kept by every step. A
grant that the delay memory does not refuse has the pages asked for, none of them listed as bad and none
held from the tail up to the head, where every page of each such cell lies. -/
def Obligations.RingLawKept : Prop :=
  (∀ s t : State, badOk s.memory.bad → s.phaseOk → s.memory.ringOk → s.cellsOk → step s = .next t →
    t.memory.ringOk ∧ t.cellsOk)
  ∧ ∀ (m : DelayMemory) (count : Nat), badOk m.bad → m.ringOk → 1 ≤ count → count ≤ 64 →
    m.refusal count = none →
    (pagesOf m.bad m.grantFirst count).length = count
      ∧ (∀ p ∈ pagesOf m.bad m.grantFirst count, p ∉ m.bad ∧ m.holds p = false)
      ∧ ∀ x ∈ segments m.head m.alloc, goodIn m.bad x.1.first x.2 = x.1.count →
          ∀ p ∈ pagesOf m.bad x.1.first x.1.count, m.holds p = true

/-- The lists that the spec bounds keep their bounds, the bad-page list stays ascending with no page
twice, the current cell stays gathered in whole pages, and the directory and the pages keep their canonical
form, which is the model's (notes/assumptions/7.md), at every step. -/
def Obligations.ListsAndTablesKept : Prop :=
  ∀ s t : State, step s = .next t →
    (s.listsBounded = true → badOk s.memory.bad → t.listsBounded = true ∧ badOk t.memory.bad)
    ∧ (s.gatherOk → t.gatherOk) ∧ (s.memoryWf = true → t.memoryWf = true)

/-! ### The output stage -/

/-- A tick in LINEUP or a delaying state with no session due and no staging under way begins the staging of
its selection: COVER-AIR shows the cover answer, and the step is counted. A step that is no hold and finds
its emit frame COMPLETE and in the allocation list reads it; a hold, and a frame missing or damaged,
carries the source frame in its place: read where it is COMPLETE and listed; sent empty, DAMAGED added,
where it is not; and sent empty, with MISSING for a hold, where there is none. A cell found COMPLETE but
not listed is a map fault, of the emit frame with the source frame carried in its place. In JOIN the
selection is that of the estimate before the tick ages the roster, the model's reading of R160
(notes/assumptions/6.md); that the buffer is empty from a read's request on is its choice (36.md). With no
source frame and E changed, the cells at the front of the allocation
list that are not needed are freed. -/
def Obligations.TickStagesItsFrame : Prop :=
  ∀ (c : Instr) (s : State) (h : FrameNo), s.tickMade c = some h → s.line.service.selects = true →
    s.noneDue h → s.output.staging = none → s.memory.reading = none →
    let x := (s.setPeers { s.peers with estimate :=
      if s.line.service = .join then s.estimateAt h else s.peers.estimate }).select h
    let covers := s.line.service.delaying && covered s.marks.table s.cfg.lane x.emit
    let dir := s.ingest.directory
    let k := s.output.counters
    let isHold := decide (x.step = .hold)
    let found := lookup dir x.emit
    let damaged := !isHold && decide (found = .damaged)
    let missing := !isHold && !damaged
    ∃ t r, exec c s = .next t ∧ t.line.emit = some x.emit ∧ t.line.source = s.line.source
      ∧ r = { tick := h, service := if s.line.service = .join then .join else t.line.service
              emit := x.emit, step := x.step, passed := x.passed, joinSkip := x.joinSkip
              covered := covers, blank := s.cfg.blank }
      ∧ t.panel.tallies.coverAir = covers
      ∧ t.output.counters.holds = (if x.step = .hold then bump k.holds else k.holds)
      ∧ t.output.counters.drops = (if x.step = .drop then bump k.drops else k.drops)
      ∧ t.output.counters.joinSkips
          = (if x.step = .joinSkip then bumpBy k.joinSkips (x.joinSkip.getD 0) else k.joinSkips)
      ∧ (∀ first count length cut, isHold = false → found = .hit first count length cut →
          mapCheck s.memory.alloc x.emit first count = true →
          t.output.staging = some { record := r, missing := false, damaged := false }
            ∧ t.output.buffer = [] ∧ t.output.link = s.output.link
            ∧ t.memory.reading = some { of := .emitFrame, frame := x.emit, first := first
                                        count := count, length := length, truncated := cut })
      ∧ (∀ first count length cut, isHold = false → found = .hit first count length cut →
          mapCheck s.memory.alloc x.emit first count = false → s.line.source = none →
          t.output.staging = none ∧ t.memory.reading = none
            ∧ t.output.link = s.output.link ++ [r.emptyCell s.laneByte false true false]
            ∧ t.output.counters.damaged = bump k.damaged
            ∧ t.memory.fault = some { frame := x.emit, page := first, kind := .mapFault }
            ∧ t.memory.counters.pageFaults = bump s.memory.counters.pageFaults
            ∧ (lookup t.ingest.directory x.emit = .damaged
                ∨ lookup t.ingest.directory x.emit = .freed))
      ∧ (∀ first count length cut z, isHold = false → found = .hit first count length cut →
          mapCheck s.memory.alloc x.emit first count = false → s.line.source = some z →
          let p1 := bump s.memory.counters.pageFaults
          let empty := t.output.staging = none ∧ t.memory.reading = none
            ∧ t.output.link = s.output.link ++ [r.emptyCell s.laneByte false true false]
            ∧ t.output.counters.damaged = bump k.damaged
          t.output.buffer = []
            ∧ match (if z = x.emit then Lookup.damaged else lookup dir z) with
              | .hit first' count' length' cut' =>
                if mapCheck s.memory.alloc z first' count' = true then
                  t.output.staging = some { record := r, missing := false, damaged := true }
                    ∧ t.output.link = s.output.link
                    ∧ t.memory.reading = some { of := .sourceFrame, frame := z, first := first'
                                                count := count', length := length', truncated := cut' }
                    ∧ t.memory.fault = some { frame := x.emit, page := first, kind := .mapFault }
                    ∧ t.memory.counters.pageFaults = p1
                else
                  empty ∧ t.memory.fault = some { frame := z, page := first', kind := .mapFault }
                    ∧ t.memory.counters.pageFaults = bump p1
              | _ =>
                empty ∧ t.memory.fault = some { frame := x.emit, page := first, kind := .mapFault }
                  ∧ t.memory.counters.pageFaults = p1)
      ∧ ((isHold = true ∨ ∀ first count length cut, found ≠ .hit first count length cut) →
          match s.line.source with
          | none =>
            t.output.staging = none ∧ t.memory.reading = none
              ∧ t.output.link
                = s.output.link ++ [r.emptyCell s.laneByte (missing || isHold) damaged false]
              ∧ t.output.counters.missing
                = (if missing || isHold then bump k.missing else k.missing)
              ∧ t.output.counters.damaged = (if damaged then bump k.damaged else k.damaged)
          | some z =>
            match lookup dir z with
            | .hit first count length cut =>
              if mapCheck s.memory.alloc z first count = true then
                t.output.staging = some { record := r, missing := missing, damaged := damaged }
                  ∧ t.output.buffer = [] ∧ t.output.link = s.output.link
                  ∧ t.memory.reading = some { of := .sourceFrame, frame := z, first := first
                                              count := count, length := length, truncated := cut }
              else
                t.output.staging = none ∧ t.memory.reading = none
                  ∧ t.output.link = s.output.link ++ [r.emptyCell s.laneByte missing true false]
                  ∧ t.memory.fault = some { frame := z, page := first, kind := .mapFault }
                  ∧ t.memory.counters.pageFaults = bump s.memory.counters.pageFaults
            | _ =>
              t.output.staging = none ∧ t.memory.reading = none
                ∧ t.output.link = s.output.link ++ [r.emptyCell s.laneByte missing true false])
      ∧ (s.line.source = none → s.line.emit ≠ some x.emit →
          t.memory.alloc = s.memory.alloc.dropWhile (fun a =>
            !atOrBefore x.emit a.frame && !s.ingest.inFlight a.frame a.first))

/-- A staging whose cell has not been sent when a tick in LINEUP or a delaying state comes is ended as a
late read, before the tick's own cell: its read is abandoned, and a cell with no payload is sent for it
with MISSING and LATE-READ, its record's other flags and the DAMAGED it had; the late-read counter and the
missing counter rise, and S stands. The tick's record is then staged, or its cell sent at once. -/
def Obligations.LateReadEnds : Prop :=
  ∀ (c : Instr) (s : State) (h : FrameNo) (g : Staging), s.tickMade c = some h →
    s.line.service.selects = true → s.output.staging = some g → s.countersOk →
    let k := s.output.counters
    let late := g.record.emptyCell s.laneByte true g.damaged true
    ∃ t more, exec c s = .next t ∧ t.output.link = s.output.link ++ late :: more
      ∧ (∀ x ∈ more, some x.emit = t.line.emit ∧ x.payload = [] ∧ x.flags.lateRead = false)
      ∧ more.length = (if t.output.staging.isSome then 0 else 1)
      ∧ (∀ g', t.output.staging = some g' → g'.record.tick = h ∧ t.memory.reading.isSome = true)
      ∧ (t.output.staging = none → t.memory.reading = none)
      ∧ t.output.counters.lateRead = bump k.lateRead
      ∧ t.output.counters.missing = bumpBy k.missing (1 + (more.filter (·.flags.missing)).length)
      ∧ t.output.counters.damaged = bumpBy k.damaged
          ((if g.damaged then 1 else 0) + (more.filter (·.flags.damaged)).length)
      ∧ t.line.source = s.line.source

/-- A read whose every page compares equal completes good: one cell is sent with the payload of the
pages under the cover treatment, S becomes the emit frame if the read was of it, and freeing is tried: the
cells at the front of the allocation list that are not needed leave it. The cells leave the output link in
the order sent, and nothing else changes when one does. -/
def Obligations.ReadCompleteSendsCell : Prop :=
  (∀ (s : State) (g : Staging) (r : ReadOp), s.output.staging = some g → s.memory.reading = some r →
    firstMismatch s.memory.pages r (pagesOf s.memory.bad r.first r.count) 1 = none →
    ∃ t cell, exec .readComplete s = .next t ∧ t.output.link = s.output.link ++ [cell]
      ∧ cell.emit = g.record.emit ∧ cell.source = r.frame ∧ cell.service = g.record.service
      ∧ cell.lane = s.laneByte
      ∧ cell.payload = (if g.record.covered = true ∧ g.record.blank = true then []
          else bytesOfPages s.memory.pages (pagesOf s.memory.bad r.first r.count))
      ∧ cell.length = cell.payload.length
      ∧ cell.flags = { g.record.sentFlags g.missing g.damaged false with truncated := r.truncated }
      ∧ cell.check = crc (bitsOfBytes (outputHeader cell.emit cell.source cell.lane cell.service
          cell.flags cell.length))
      ∧ t.output.staging = none ∧ t.memory.reading = none
      ∧ t.line.source = (if r.of = .emitFrame then some r.frame else s.line.source)
      ∧ t.memory.alloc = s.memory.alloc.dropWhile (fun a => !t.needed a)
      ∧ t.line.emit = s.line.emit ∧ t.memory.pages = s.memory.pages ∧ t.marks = s.marks
      ∧ t.bus = s.bus)
  ∧ ∀ s : State, exec .cellLeavesOutputLink s
    = .next (s.setOutput { s.output with link := s.output.link.drop 1 })

/-- The first failing page of a read ends it with CHECK-FAIL: the page joins the bad-page list unless it
is full, the fault record and the counter are written, the entry that describes the cell is no longer
COMPLETE, the notice is offered, and the read is over. A cell with DAMAGED is then sent, but for a read of
the emit frame with a source frame to read in its place. A source frame that fails its own map check is
apart. That the command names the page by its position in the cell is the model's choice
(notes/assumptions/8.md). -/
def Obligations.CheckFailListsPage : Prop :=
  ∀ (s : State) (g : Staging) (r : ReadOp) (n : Nat) (p : Page), s.output.staging = some g →
    s.memory.reading = some r → 1 ≤ n →
    (pagesOf s.memory.bad r.first r.count)[n - 1]? = some p →
    firstMismatch s.memory.pages r (pagesOf s.memory.bad r.first r.count) 1 = none →
    (∀ z first count length cut, r.of = .emitFrame → s.line.source = some z →
      lookup s.ingest.directory z = .hit first count length cut →
      z ≠ r.frame ∧ mapCheck s.memory.alloc z first count = true) →
    ∃ t, exec (.checkFail n) s = .next t
      ∧ t.memory.bad = (if s.memory.bad.length < 32 then insertPage p s.memory.bad else s.memory.bad)
      ∧ t.memory.fault = some { frame := r.frame, page := p, kind := .checkFail }
      ∧ t.memory.counters.pageFaults = bump s.memory.counters.pageFaults
      ∧ t.memory.counters.unlisted = (if s.memory.bad.length < 32 ∨ p ∈ s.memory.bad
          then s.memory.counters.unlisted else bump s.memory.counters.unlisted)
      ∧ t.output.buffer = []
      ∧ (describes s.ingest.directory r.frame r.first = true →
          (dirGet t.ingest.directory (dirIndex r.frame)).state = .damaged
            ∨ (dirGet t.ingest.directory (dirIndex r.frame)).state = .freed)
      ∧ (s.mayTransmit = true → s.bus.queue.length < 8 →
          t.bus.hasNotice 0x10 s.clock.tick r.frame p)
      ∧ (∀ z first count length cut, r.of = .emitFrame → s.line.source = some z →
          lookup s.ingest.directory z = .hit first count length cut →
          t.output.staging = some { g with damaged := true } ∧ t.output.link = s.output.link
            ∧ t.memory.reading = some { of := .sourceFrame, frame := z, first := first
                                        count := count, length := length, truncated := cut })
      ∧ ((r.of = .emitFrame → ∀ z first count length cut, s.line.source = some z →
            lookup s.ingest.directory z ≠ .hit first count length cut) →
          (r.of = .emitFrame → s.line.source = none → g.record.step ≠ .hold) →
          t.output.staging = none ∧ t.memory.reading = none
            ∧ t.output.link
              = s.output.link ++ [g.record.emptyCell s.laneByte g.missing true false]
            ∧ t.memory.alloc = s.memory.alloc.dropWhile (fun a => !t.needed a))
      ∧ t.line = s.line ∧ t.marks = s.marks

/-- BYPASS. A header leaves a back cell that is not complete unsent; a good one of the station's lane
class hands its cell to the store, from which the oldest of two leaves unsent; any other is dropped and
counted. Bytes join the back cell until it is complete. A tick sends the oldest ready cell, or an empty one
of the frame before the tick with MISSING, then makes every complete cell ready; COVER-AIR is off. -/
def Obligations.BypassPassesCells : Prop :=
  ∀ s : State, s.startup.phase ≠ .held → s.line.service = .bypass →
    (∀ header : List Byte,
      let b := readCellHeader header
      let l := s.output.bypass
      let kept := if l.getLast?.any (fun c => !c.complete) then l.dropLast else l
      let u := s.setOutput { s.output with bypass := kept }
      let k := s.ingest.counters
      let stored := min b.length (s.cfg.cellPages * 65536)
      let cut := decide (s.cfg.cellPages * 65536 < b.length)
      exec (.cellHeaderArrival header) s = .next
        (if b.good = false then
          u.setIngest { s.ingest with counters := { k with headerBad := bump k.headerBad } }
        else if b.lane ≠ s.cfg.lane then
          u.setIngest { s.ingest with counters := { k with wrongLane := bump k.wrongLane } }
        else
          (s.setOutput { s.output with bypass := (if 2 ≤ kept.length then kept.drop 1 else kept) ++
            [{ frame := b.frame, lane := BitVec.ofNat 8 b.lane, declared := b.length
               stored := stored, payload := [], truncated := cut, complete := decide (stored = 0)
               ready := false }] }).setIngest
            { s.ingest with counters :=
              { k with truncated := if cut then bump k.truncated else k.truncated } }))
    ∧ (∀ (bytes : List Byte) (front : List BypassCell) (c : BypassCell),
      s.output.bypass = front ++ [c] →
      let payload := c.payload ++ bytes.take (c.stored - c.payload.length)
      exec (.cellPayloadBytes bytes) s = .next (if c.complete then s
        else s.setOutput { s.output with bypass := front ++
          [{ c with payload := payload, complete := decide (c.stored ≤ payload.length) }] }))
    ∧ (∀ (c : Instr) (h : FrameNo), s.tickMade c = some h →
      let promote (x : BypassCell) : BypassCell := { x with ready := x.ready || x.complete }
      ∃ t cell, exec c s = .next t ∧ t.output.link = s.output.link ++ [cell]
        ∧ t.panel.tallies.coverAir = false ∧ t.line.service = .bypass ∧ t.line.emit = s.line.emit
        ∧ (∀ (a : List BypassCell) (x : BypassCell) (b : List BypassCell),
            s.output.bypass = a ++ x :: b → a.all (fun y => !y.ready) = true → x.ready = true →
            cell = outputCell x.frame x.frame x.lane .bypass
                { CellFlags.none with bypass := true, truncated := x.truncated } x.payload
              ∧ t.output.bypass = (a ++ b).map promote
              ∧ t.output.counters = s.output.counters)
        ∧ (s.output.bypass.all (fun y => !y.ready) = true →
            cell = outputCell (h - 1) (h - 1) s.laneByte .bypass
                { CellFlags.none with bypass := true, missing := true } []
              ∧ t.output.bypass = s.output.bypass.map promote
              ∧ t.output.counters
                = { s.output.counters with missing := bump s.output.counters.missing }))

/-! ### The cue bus -/

/-- The idle line found makes the controller TRACKING, and changes nothing else. The controller starts the
frame at the head of the queue when the line is idle and it is TRACKING, the queue is not empty, the id is
1 to 31 and the state is not TEST, and otherwise starts none; a BEACON carries the cue count and digest of
this moment, and the rest is as it was queued. A lost arbitration makes the sender a receiver of the frame:
its frames all stay in the queue, no attempt is counted and no counter changes; an attempted head keeps its
place. -/
def Obligations.FrameStartAndArbitration : Prop :=
  (∀ s : State, s.startup.phase ≠ .held →
    exec .lineTrackingFound s = .next (s.setBus { s.bus with tracking := .tracking }))
  ∧ (∀ s : State,
    (∀ (f : TxFrame) (rest : List TxFrame), s.bus.queue = f :: rest → s.bus.activity = .quiet →
      s.bus.tracking = .tracking → s.startup.id ≠ 0 → s.line.service ≠ .test →
      ∃ m, m = (match f.msg with
          | .beacon b => .beacon { b with cueCount := s.marks.cueCount, digest := s.eff.digest }
          | m => m)
        ∧ exec .frameStart s
          = .next (s.setBus { s.bus with activity := .sending (lineFrame s.startup.id m f.target) }))
    ∧ (s.bus.queue = [] ∨ s.bus.activity ≠ .quiet ∨ s.bus.tracking ≠ .tracking
        ∨ s.startup.id = 0 ∨ s.line.service = .test → exec .frameStart s = .next s))
  ∧ ∀ (s : State) (f : LineFrame), s.bus.activity = .sending f →
    ∃ t, exec .arbitrationLost s = .next t ∧ t.bus.activity = .reading
      ∧ t.bus.queue.Perm s.bus.queue ∧ (s.bus.attempts ≠ 0 → t.bus.queue = s.bus.queue)
      ∧ t = s.setBus { s.bus with activity := .reading, queue := t.bus.queue }

/-- At the end of the check a reading station judges the frame: a good one is taken note of; a bad one is
objected to, and counted, by a station that may transmit and is not receive-suspect, and by no other;
the sixteenth objection in a row makes the station receive-suspect with the SERVICE tally on. The model's
choices in it: the frame comes whole (notes/assumptions/22.md), a bad frame counts in the run also with
this station's own id as its source (33.md), and a good frame clears the run at the end of its slot and not
here (21.md). -/
def Obligations.FrameTestJudges : Prop :=
  ∀ (s : State) (f : LineFrame), s.bus.tracking = .tracking →
    s.bus.activity = .quiet ∨ s.bus.activity = .reading →
    (frameGood f = true →
      exec (.frameTest f) s = .next (s.setBus { s.bus with activity := .judged f true false }))
    ∧ (frameGood f = false → s.mayTransmit = false ∨ s.bus.suspect = true →
      exec (.frameTest f) s = .next (s.setBus { s.bus with activity := .judged f false false }))
    ∧ (frameGood f = false → s.mayTransmit = true → s.bus.suspect = false →
      ∃ t, exec (.frameTest f) s = .next t ∧ t.bus.activity = .judged f false true
        ∧ t.bus.counters.objectionsRaised = bump s.bus.counters.objectionsRaised
        ∧ t.bus.objectionRun = min (s.bus.objectionRun + 1) 16
        ∧ (s.bus.objectionRun < 15 → t.bus.suspect = false ∧ t.bus.queue = s.bus.queue)
        ∧ (15 ≤ s.bus.objectionRun → t.bus.suspect = true ∧ t.panel.tallies.service = true)
        ∧ t.bus.attempts = s.bus.attempts ∧ t.line = s.line ∧ t.marks = s.marks
        ∧ t.peers = s.peers ∧ t.memory = s.memory ∧ t.startup = s.startup)

/-- An attempt short of the fourth. An identity clash stops the sender, counts the attempt and the clash,
and leaves the frame at the head; the clash-seen flag is set, the SERVICE tally is on, and the first clash
since reset forms its notice. A driven slot counts the attempt, and the frame stays at the head, held, and
takes no effect. -/
def Obligations.AttemptCountedAndHeld : Prop :=
  (∀ (s : State) (f : LineFrame) (g : TxFrame) (rest : List TxFrame),
    s.bus.activity = .sending f → s.bus.queue = g :: rest → s.bus.attempts < 3 →
    ∃ t, exec .idClash s = .next t ∧ t.bus.activity = .reading
      ∧ t.bus.attempts = s.bus.attempts + 1 ∧ t.bus.queue.head? = some g
      ∧ t.bus.counters.objectedAttempts = bump s.bus.counters.objectedAttempts
      ∧ t.bus.counters.idClashes = bump s.bus.counters.idClashes
      ∧ t.bus.counters.sent = s.bus.counters.sent ∧ t.bus.clashSeen = true
      ∧ t.panel.tallies.service = true
      ∧ (s.bus.clashSeen = false → s.mayTransmit = true → s.bus.queue.length < 8 →
          t.bus.hasNotice 0x09 s.clock.tick s.emitOrZero
            (bytePair (f.kind.setWidth 8) (s.startup.id.setWidth 8)))
      ∧ (s.bus.clashSeen = true → t.bus.queue = s.bus.queue)
      ∧ t.line = s.line ∧ t.marks = s.marks ∧ t.memory = s.memory ∧ t.startup = s.startup)
  ∧ ∀ (s : State) (f : LineFrame) (straps : StationId) (listed : List Page),
    s.bus.activity = .sending f → s.bus.attempts < 3 →
    ∃ t, exec (.objectionSlotEnd true straps listed) s = .next t
      ∧ t.bus = { s.bus with
          activity := .quiet, attempts := s.bus.attempts + 1
          counters := { s.bus.counters with
            objectedAttempts := bump s.bus.counters.objectedAttempts } }
      ∧ t.bus.headHeld = true ∧ t.line = s.line ∧ t.marks = s.marks ∧ t.peers = s.peers
      ∧ t.memory = s.memory ∧ t.ingest = s.ingest ∧ t.startup = s.startup ∧ t.clock = s.clock

/-- The fourth objected attempt abandons the frame: it leaves the queue, the attempt count is 0, the
abandoned counter rises and the SEND-ABANDONED notice is queued, but for a NOTICE, which is lost with
nothing put in its place; of a REPORT R138 and R175 say the one and the other, and whichever the free value
`abandonedReportNoticed` says is done (notes/assumptions/34.md); for the station's own MARK-OPEN the open
key of its line becomes none and its queued MARK-CLOSE is withdrawn; for a HELLO the HELLO-owed flag is set.
-/
def Obligations.FourthAttemptAbandoned : Prop :=
  ∀ (s : State) (f : LineFrame) (g : TxFrame) (rest : List TxFrame) (straps : StationId)
    (listed : List Page), s.bus.activity = .sending f → s.bus.attempts = 3 →
    s.bus.queue = g :: rest → rest.length < 8 → s.marks.reannounce = [] → s.mayTransmit = true →
    let unnoticed := match g.msg with
      | .notice _ => true
      | .report _ => !Config.abandonedReportNoticed
      | _ => false
    ∃ t, exec (.objectionSlotEnd true straps listed) s = .next t ∧ t.bus.attempts = 0
      ∧ t.bus.activity = .quiet
      ∧ t.bus.counters.abandoned = bump s.bus.counters.abandoned
      ∧ t.bus.counters.objectedAttempts = bump s.bus.counters.objectedAttempts
      ∧ t.bus.counters.sent = s.bus.counters.sent
      ∧ (unnoticed = true → t.bus.queue = rest)
      ∧ (unnoticed = false → t.bus.hasNotice 0x08 s.clock.tick (g.msg.abandonedFrame s.emitOrZero)
          (bytePair (g.msg.kind.setWidth 8) (g.msg.abandonedLow g.target)))
      ∧ (∀ o, g.msg = .markOpen o → o.reannounced = false →
          (∀ x ∈ t.bus.queue, x.msg.closesMark o.origin o.seq = false)
            ∧ t.panel.coverKey ≠ some o.key ∧ t.panel.lockKey ≠ some o.key)
      ∧ (∀ m, g.msg = .hello m → t.bus.helloOwed = true)
      ∧ t.marks = s.marks ∧ t.line = s.line ∧ t.peers = s.peers

/-- A frame of the station's own whose slot no station drove is received: it leaves the queue, the
attempt count is 0 and the sent counter rises. Of the frames behind it every one stays in its place, where
no re-announcement is pending and it is no HELLO, and behind them stand at most the notices of a mark
frame's reception; in any case the queue holds nothing but frames that stood behind it, notices, and
re-announced marks. A HELLO received with no mark held leaves the frames behind it alone. -/
def Obligations.UndrivenFrameSent : Prop :=
  ∀ (s : State) (g : TxFrame) (rest : List TxFrame) (straps : StationId) (listed : List Page),
    s.bus.queue = g :: rest → s.bus.activity = .sending (s.startedFrame g) →
    frameGood (s.startedFrame g) = true →
    ∃ t, exec (.objectionSlotEnd false straps listed) s = .next t ∧ t.bus.attempts = 0
      ∧ t.bus.activity = .quiet ∧ t.bus.counters.sent = bump s.bus.counters.sent
      ∧ t.bus.counters.objectedAttempts = s.bus.counters.objectedAttempts
      ∧ (∀ f ∈ t.bus.queue, f ∈ rest ∨ f.msg.isNotice = true
          ∨ ∃ o, f.msg = .markOpen o ∧ o.reannounced = true)
      ∧ (s.marks.reannounce = [] → g.msg.isHello = false →
          ∃ notices, t.bus.queue = rest ++ notices ∧ (∀ f ∈ notices, f.msg.isNotice = true)
            ∧ (g.msg.priority ≠ 2 → notices = []))
      ∧ (s.marks.reannounce = [] → s.marks.table = [] → g.msg.isHello = true → t.bus.queue = rest)
      ∧ t.startup = s.startup ∧ t.clock = s.clock ∧ t.memory = s.memory ∧ t.output = s.output

/-- What a cue frame's payload carries is read back whole: every message, with every field at every
value. And the frame that a station with an id forms of a message passes every test of a receiver: with the
message's content in its range, and its target as the kind asks. -/
def Obligations.CueFramesReadBackAndPass : Prop :=
  (∀ m : CueMsg, readMsg m.kind m.payload = some m)
  ∧ ∀ (m : CueMsg) (src target : StationId), src ≠ 0 →
    (match m with
      | .markOpen o => o.origin ≠ 0 ∧ (o.kind = .dump → o.fin ≠ none)
      | .markClose origin _ _ => origin ≠ 0
      | .markRetract origin _ => origin ≠ 0
      | .query group _ => group.toNat ≤ 4
      | .report body => body.length = 17
      | _ => True) →
    (match m with
      | .realign | .restart | .query _ _ | .report _ => target ≠ 0
      | _ => target = 0) →
    frameGood (lineFrame src m target) = true

/-- The transmit queue never holds more than 8 frames nor more than one BEACON, and its frames that are
not held stand in order of priority and acceptance behind the held one; the stamp that orders acceptance is
the model's (notes/assumptions/13.md). A station in TEST or with id 0 never drives the bus, neither to send
nor to object, and its objection run stays 0; no station's run passes 16, and it is receive-suspect when
the run is 16. An offer is refused at such a station. A BEACON takes the place of one queued and not held,
and is dropped and counted where the one queued is held. With fewer than 8 frames queued a frame is accepted
behind those of its own priority; with 8, in place of the youngest frame not held of a higher priority
number, which is counted, or it is refused where there is none. At a discard a lost HELLO is owed; of a lost
own MARK-OPEN the line's open key becomes none and a waiting MARK-CLOSE is withdrawn, with PRESS-REFUSED
where that leaves room for it; what a pending re-announce list adds to a discard is left out here. -/
def Obligations.QueueAndSilenceKept : Prop :=
  (∀ s t : State, step s = .next t →
    (s.bus.bounded = true → s.bus.ordered → t.bus.bounded = true ∧ t.bus.ordered)
    ∧ (s.heldOk → s.phaseOk → s.silentWhenBarred → s.objectionRunOk →
        t.silentWhenBarred ∧ t.objectionRunOk))
  ∧ ∀ (s : State) (msg : CueMsg) (target : StationId),
    let f : TxFrame := { msg := msg, target := target, stamp := nextStamp s.bus.queue }
    let r := s.offer msg target
    let held := s.bus.heldPart
    let free := s.bus.freePart
    let counted := { s.bus.counters with queueDiscards := bump s.bus.counters.queueDiscards }
    let placed (l q : List TxFrame) : Prop := ∃ a c, l = a ++ c ∧ q = a ++ f :: c
      ∧ (∀ g ∈ a, g.msg.priority ≤ msg.priority)
      ∧ ∀ g, c.head? = some g → msg.priority < g.msg.priority
    if s.startup.id = 0 ∨ s.line.service = .test then r = (s, false)
    else if msg.isBeacon = true ∧ ∃ g ∈ free, g.msg.isBeacon = true then
      r = (s.setBus { s.bus with
        queue := held ++ free.map (fun g => if g.msg.isBeacon = true then f else g) }, true)
    else if msg.isBeacon = true ∧ ∃ g ∈ held, g.msg.isBeacon = true then
      r = (s.setBus { s.bus with counters := counted }, false)
    else if s.bus.queue.length < 8 then
      ∃ q, placed free q ∧ r = (s.setBus { s.bus with queue := held ++ q }, true)
    else if ∀ g ∈ free, g.msg.priority ≤ msg.priority then r = (s, false)
    else r.2 = true ∧ ∃ g q, g ∈ free ∧ msg.priority < g.msg.priority
      ∧ (∀ y ∈ free, msg.priority < y.msg.priority → y.stamp ≤ g.stamp)
      ∧ placed (free.erase g) q
      ∧ (s.marks.reannounce = [] →
        let after (l : List TxFrame) : BusController :=
          { s.bus with
            queue := held ++ l, counters := counted
            helloOwed := s.bus.helloOwed || g.msg.isHello }
        match g.msg with
        | .markOpen o =>
          let key : MarkKey := { origin := o.origin, seq := o.seq, orphan := o.orphan }
          let cut (x : Option MarkKey) : Option MarkKey := if x = some key then none else x
          let kept := q.filter (fun y => !y.msg.closesMark o.origin o.seq)
          let refused : TxFrame :=
            { msg := .notice
                { code := 0x01, tick := (s.clock.tick.getD 0).setWidth 16, frame := o.start
                  detail := bytePair o.kind.lineCode 0x04 }
              target := 0, stamp := nextStamp (held ++ kept) }
          if o.reannounced = true then r.1 = s.setBus (after q)
          else
            r.1 = (s.setBus (after
                (if (held ++ kept).length < 8 then kept ++ [refused] else kept))).setPanel
              { s.panel with coverKey := cut s.panel.coverKey, lockKey := cut s.panel.lockKey }
        | _ => r.1 = s.setBus (after q))

/-! ### Peers -/

/-- The ageing of an entry unheard for u ticks: ROSTER_SILENT marks it SILENT when u is 3 B or more and
less than 16 B, of the rest only the join reference, chosen again in JOIN, changing with it; ROSTER_FREED
frees it when u is 16 B or more, with an ALIGN-CLEAR notice if it had ALIGN-FAULT; otherwise both change
nothing. That the commands test the age at the tick number standing is the model's choice
(notes/assumptions/5.md). -/
def Obligations.RosterEntryAges : Prop :=
  ∀ (s : State) (id : StationId) (p : Peer) (c : Settings) (h x : FrameNo),
    s.startup.config = some c → s.clock.tick = some h → findPeer s.peers.roster id = some p →
    p.lastHeard = some x →
    let unheard := (h - x).toNat
    (3 * c.beacon ≤ unheard ∧ unheard < 16 * c.beacon →
      ∃ t, exec (.rosterSilent id) s = .next t
        ∧ t.peers.roster
          = s.peers.roster.map (fun q => if q.id = id then { q with silent := true } else q)
        ∧ t = s.setPeers { s.peers with
            roster := t.peers.roster
            reference := if s.line.service = .join then
              chooseReference t.peers.roster s.eff.digest else s.peers.reference })
    ∧ (unheard < 3 * c.beacon ∨ 16 * c.beacon ≤ unheard → exec (.rosterSilent id) s = .next s)
    ∧ (16 * c.beacon ≤ unheard →
      ∃ t, exec (.rosterFreed id) s = .next t
        ∧ t.peers.roster = s.peers.roster.filter (fun q => decide (q.id ≠ id))
        ∧ t.panel.tallies.align = t.peers.roster.any (·.alignFault)
        ∧ (p.alignFault = false → t.bus = s.bus)
        ∧ (p.alignFault = true → s.mayTransmit = true → s.bus.queue.length < 8 →
            ∃ f ∈ t.bus.queue, f.msg = .notice
              { code := 0x0C, tick := h.setWidth 16, frame := 0
                detail := bytePair (id.setWidth 8) 2 })
        ∧ t.line = s.line ∧ t.marks = s.marks ∧ t.memory = s.memory ∧ t.output = s.output
        ∧ t.startup = s.startup ∧ t.clock = s.clock)
    ∧ (unheard < 16 * c.beacon → exec (.rosterFreed id) s = .next s)

/-- A HELLO received good from another station, outside TEST: its roster entry takes the lane class and
digest carried, loses its last beacon and expected sequence, is no longer SILENT or in ALIGN-FAULT, and
has CONFIG-MISMATCH when the digests differ, a change of these two flags being noticed; every other entry
stands. Where the roster has no entry for it one is made; in a full roster it takes the place of the one
unheard for the most ticks, of several the one of the lowest id, whose ALIGN-FAULT is noticed as cleared. -/
def Obligations.HelloRenewsRosterEntry : Prop :=
  ∀ (s : State) (m : HelloMsg) (src : StationId) (straps : StationId)
    (listed : List Page), src ≠ 0 → s.hasReadGood (lineFrame src (.hello m) 0) →
    s.line.service ≠ .test → (s.peers.roster.map (·.id)).Nodup →
    let differs := decide (m.digest ≠ s.eff.digest)
    let renewed : Peer :=
      { id := src, lane := some m.lane, lastHeard := s.clock.tick, beacon := none
        digest := some m.digest, expected := none, silent := false, alignFault := false
        mismatch := differs }
    let known := findPeer s.peers.roster src
    let room := s.startup.id ≠ 0 ∧ s.bus.queue.length < 7 ∧ s.marks.table = []
    ∃ t, exec (.objectionSlotEnd false straps listed) s = .next t
      ∧ (match known with
        | some p =>
          t.peers.roster = s.peers.roster.map (fun q => if q.id = src then renewed else q)
            ∧ (p.alignFault = true → room →
                t.bus.hasNotice 0x0C s.clock.tick 0 (bytePair (src.setWidth 8) 1))
        | none =>
          if s.peers.roster.length < 15 then
            ∀ q, q ∈ t.peers.roster ↔ q = renewed ∨ q ∈ s.peers.roster
          else
            ∃ v ∈ s.peers.roster,
              (∀ q ∈ s.peers.roster, q.unheard s.clock.tick ≤ v.unheard s.clock.tick
                ∧ (q.unheard s.clock.tick = v.unheard s.clock.tick → v.id.toNat ≤ q.id.toNat))
              ∧ (∀ q, q ∈ t.peers.roster ↔ q = renewed ∨ (q ∈ s.peers.roster ∧ q ≠ v))
              ∧ (v.alignFault = true → room →
                  t.bus.hasNotice 0x0C s.clock.tick 0 (bytePair (v.id.setWidth 8) 2)))
      ∧ ((known.map (·.mismatch)).getD false ≠ differs → room →
          t.bus.hasNotice 0x0D s.clock.tick (s.eff.digest ++ m.digest)
            (bytePair (src.setWidth 8) (if differs then 1 else 0)))
      ∧ t.panel.tallies.align = t.peers.roster.any (·.alignFault)
      ∧ t.line = s.line ∧ t.memory = s.memory ∧ t.output = s.output ∧ t.startup = s.startup

/-- A beacon received good in BUILD, FULL or DRAIN, of a station of the roster with the same digest and
in one of those states, is compared with the history entry of its tick: the sender's ALIGN-FAULT is set
when emit frame, delay, removed total or cue count differ and cleared when none does, and the ALIGN tally
follows. -/
def Obligations.BeaconCompareSetsAlignFault : Prop :=
  ∀ (s : State) (m : BeaconMsg) (src : StationId) (p : Peer) (x : HistoryEntry)
    (straps : StationId) (listed : List Page), src ≠ 0 →
    s.hasReadGood (lineFrame src (.beacon m) 0) → s.line.service.inSession = true →
    findPeer s.peers.roster src = some p → (s.peers.roster.map (·.id)).Nodup →
    m.digest = s.eff.digest → m.service = 2 ∨ m.service = 3 ∨ m.service = 4 →
    historyAt s.line.history m.tick = some x →
    ∃ t q, exec (.objectionSlotEnd false straps listed) s = .next t
      ∧ findPeer t.peers.roster src = some q
      ∧ (q.alignFault = true ↔ x.emit ≠ m.emit ∨ x.delay ≠ m.delay.setWidth 32
          ∨ x.removed ≠ m.removed ∨ s.marks.cueCount ≠ m.cueCount)
      ∧ q.beacon = some m.last ∧ q.lastHeard = s.clock.tick ∧ q.silent = false
      ∧ t.panel.tallies.align = t.peers.roster.any (·.alignFault)
      ∧ (∀ y ∈ s.peers.roster, y.id ≠ src → y ∈ t.peers.roster)
      ∧ t.line = s.line ∧ t.marks = s.marks ∧ t.memory = s.memory

/-- A beacon tick, with no session due, no event on the panel, no BEACON queued and room: a BEACON of the
tick is queued, with the schedule that the tick has left, or in BYPASS with its fields 0, the cue count and
digest being filled in at each start and queued as 0, which is the model's reading
(notes/assumptions/27.md); a HELLO owed is formed and queued, and is owed no longer. At any
other tick no BEACON is formed. -/
def Obligations.BeaconFormedAtTick : Prop :=
  ∀ (c : Instr) (s : State) (h : FrameNo) (levels : PanelLevels), s.tickMade c = some h →
    s.startup.id ≠ 0 → s.line.service ≠ .test → s.noneDue h → panelLevels c = some levels →
    s.panel.last = none ∨ s.panel.last = some levels →
    let due := h.toNat % s.cfg.beacon = s.startup.id.toNat % s.cfg.beacon
    ∃ t, exec c s = .next t
      ∧ let state := if s.line.service = .join then 5 else t.line.service.code
        (due → (∀ f ∈ s.bus.queue, f.msg.isBeacon = false) → s.bus.queue.length < 7 →
          (∃ f ∈ t.bus.queue, f.target = 0 ∧ f.msg = .beacon
            (if s.line.service = .bypass then
              { tick := h, emit := 0, delay := 0, service := 6, removed := 0, cueCount := 0, digest := 0 }
            else
              { tick := h, emit := t.emitOrZero, delay := t.line.delay.setWidth 16, service := state
                removed := t.line.removed, cueCount := 0, digest := 0 }))
          ∧ (s.bus.helloOwed = true → t.bus.helloOwed = false ∧ ∃ f ∈ t.bus.queue, f.target = 0
              ∧ f.msg = .hello
                { station := s.startup.id.setWidth 8, lane := BitVec.ofNat 8 s.cfg.lane
                  service := state, cause := s.startup.cause.last.code
                  restarts := BitVec.ofNat 8 s.startup.cause.restarts
                  seen := s.startup.cause.seenByte, digest := s.eff.digest
                  configFlags := s.startup.flags.toByte
                  vendor := 0x1C7, part := 0x2408, revision := 0x02 }))
        ∧ (¬ due → t.bus.helloOwed = s.bus.helloOwed
          ∧ ∀ f ∈ t.bus.queue, f.msg.isBeacon = true → f ∈ s.bus.queue)

/-- The roster holds at most 15 entries, one for each station heard, none of them the station itself or id
0; they stand in order of id, which is the model's choice (notes/assumptions/10.md). -/
def Obligations.RosterKept : Prop :=
  ∀ s t : State, s.heldOk → s.phaseOk → s.lineFrameOk → s.rosterOk → step s = .next t →
    t.lineFrameOk ∧ t.rosterOk

/-! ### Panel and reports -/

/-- The panel is sampled at every tick, once the delay line's work is done. The first sample records the
levels alone. At any other each line that has changed gives its event, and the events are worked one after
the other: the releases of COVER and LOCK, then the presses of DUMP, COVER, LOCK, START and END. Then the
roster is aged, which comes after the sample by the model's choice (notes/assumptions/5.md), and the
tallies are set, and last an own tick of the absence timer forms REF-HOLDOVER, behind the panel's frames,
which is the model's choice too (23.md). -/
def Obligations.PanelSampledAtTick : Prop :=
  ∀ (c : Instr) (s : State) (h : FrameNo) (now : PanelLevels), s.tickMade c = some h →
    panelLevels c = some now →
    ∃ clock : ProgramClock, clock.tick = s.clock.tick ∧
      let u := (((s.setClock clock).takeTick h).takeSessions h).tickState h
      let sampled := u.setPanel { u.panel with last := some now }
      let events : List (Bool × (State → State)) := match s.panel.last with
        | none => []
        | some was =>
          [(was.cover && !now.cover, (·.releaseMark .cover h)),
           (was.lock && !now.lock, (·.releaseMark .lock h)),
           (!was.dump && now.dump, (·.pressMark .dump h)),
           (!was.cover && now.cover, (·.pressMark .cover h)),
           (!was.lock && now.lock, (·.pressMark .lock h)),
           (!was.start && now.start, (·.pressSession .start h)),
           (!was.stop && now.stop, (·.pressSession .stop h))]
      let worked := ((events.filter (·.1)).map (·.2)).foldl (fun x work => work x) sampled
      let t := (worked.ageRoster h).setTallies
      exec c s = .next (match c with
        | .absenceTimerExpiry _ => t.notice 0x12 (some h) t.emitOrZero 0
        | _ => t)

/-- A press on a mark line in BUILD, FULL or DRAIN with room for the mark and in the queue forms its
MARK-OPEN and takes the sequence number: a closed DUMP from E + G, of L_eff frames or to the tick of the
press, refused as TOO-SHORT when it would be empty; an open COVER from the lookback; an open LOCK; the
COVER and LOCK lines take their open key. The mark is in no table yet. -/
def Obligations.PressFormsMark : Prop :=
  ∀ (s : State) (h e : FrameNo), s.startup.id ≠ 0 → s.line.service.inSession = true →
    s.line.emit = some e → s.clock.tick = some h →
    s.marks.table.length + ownOpens s.bus.queue < 32 → s.bus.queue.length < 8 →
    let key : MarkKey := { origin := s.startup.id, seq := s.ownSeq, orphan := false }
    let taken : MarkUnit := { s.marks with nextSeq := s.ownSeq + 1 }
    let floor := e + BitVec.ofNat 32 s.eff.guard
    let fin := earlier (floor + BitVec.ofNat 32 s.eff.dumpLength) h
    let d := s.pressMark .dump h
    let c := s.pressMark .cover h
    let l := s.pressMark .lock h
    (atOrBefore fin floor = false →
      (∃ f ∈ d.bus.queue, f.target = 0 ∧ f.msg = .markOpen
        { origin := key.origin, seq := key.seq, kind := .dump, orphan := false,
          reannounced := false, lanes := 0xFF, start := floor, fin := some fin })
      ∧ d.marks = taken ∧ d.panel = s.panel ∧ d.line = s.line)
    ∧ (atOrBefore fin floor = true →
      (∃ f ∈ d.bus.queue, f.target = 0 ∧ f.msg = .notice
        { code := 0x15, tick := h.setWidth 16, frame := floor, detail := s.line.delay.setWidth 16 })
      ∧ d.marks = { s.marks with counters :=
          { s.marks.counters with tooLate := bump s.marks.counters.tooLate } }
      ∧ d.panel = s.panel ∧ d.line = s.line)
    ∧ ((∃ f ∈ c.bus.queue, f.target = 0 ∧ f.msg = .markOpen
        { origin := key.origin, seq := key.seq, kind := .cover, orphan := false,
          reannounced := false, lanes := s.cfg.coverLanes,
          start := later (h - 1 - BitVec.ofNat 32 s.cfg.lookback) floor, fin := none })
      ∧ c.marks = taken ∧ c.panel = { s.panel with coverKey := some key } ∧ c.line = s.line)
    ∧ (∃ f ∈ l.bus.queue, f.target = 0 ∧ f.msg = .markOpen
        { origin := key.origin, seq := key.seq, kind := .lock, orphan := false,
          reannounced := false, lanes := 0xFF, start := later (h - 1) floor, fin := none })
      ∧ l.marks = taken ∧ l.panel = { s.panel with lockKey := some key } ∧ l.line = s.line

/-- The other events of the panel. A release of COVER or LOCK forms the MARK-CLOSE of the line's open key,
at the tick and the tail, and the key becomes none whether the queue takes it or not; with no open key it
forms nothing. A START press in LINEUP and an END press in BUILD or FULL form the session frame of three
ticks on; in any other state they are refused with PRESS-REFUSED. A mark press outside BUILD, FULL and
DRAIN, and one with the table full, is refused with its notice and its line's open key none; full is read
as a sum of 32 records and queued own MARK-OPENs or more, which is the model's reading
(notes/assumptions/15.md). At a monitor a press does nothing. -/
def Obligations.ReleasesAndOtherPresses : Prop :=
  ∀ (s : State) (h : FrameNo),
    let keyOf (u : State) (kind : MarkKind) : Option MarkKey := match kind with
      | .dump => none
      | .cover => u.panel.coverKey
      | .lock => u.panel.lockKey
    let cleared (kind : MarkKind) : PanelUnit := match kind with
      | .dump => s.panel
      | .cover => { s.panel with coverKey := none }
      | .lock => { s.panel with lockKey := none }
    (∀ kind : MarkKind,
      let r := s.releaseMark kind h
      (keyOf s kind = none → r = s)
      ∧ ∀ key, keyOf s kind = some key →
          r.panel = cleared kind ∧ r.marks.table = s.marks.table ∧ r.line = s.line
          ∧ (s.mayTransmit = true → s.bus.queue.length < 8 → ∃ f ∈ r.bus.queue, f.target = 0
              ∧ f.msg = .markClose key.origin key.seq (h + BitVec.ofNat 32 s.cfg.tail))
          ∧ (8 ≤ s.bus.queue.length → (∀ f ∈ s.bus.freePart, f.msg.priority ≤ 2) → r.bus = s.bus))
    ∧ (∀ kind : SessionKind,
      let r := s.pressSession kind h
      let taken := kind = .start ∧ s.line.service = .lineup
        ∨ kind = .stop ∧ (s.line.service = .build ∨ s.line.service = .full)
      (s.startup.id = 0 → r = s)
      ∧ (s.mayTransmit = true → s.bus.queue.length < 8 →
          r.line = s.line ∧ r.marks = s.marks ∧ r.panel = s.panel
          ∧ (taken → ∃ f ∈ r.bus.queue, f.target = 0 ∧ f.msg =
            (if kind = .start then .sessionStart (h + 3) else .sessionEnd (h + 3)))
          ∧ (¬ taken → r.bus.hasNotice 0x01 s.clock.tick s.emitOrZero
              (bytePair (if kind = .start then 4 else 5) 1))))
    ∧ ∀ kind : MarkKind,
      let r := s.pressMark kind h
      let line : Byte := match kind with
        | .dump => 1
        | .cover => 2
        | .lock => 3
      (s.startup.id = 0 → r = s)
      ∧ (s.startup.id ≠ 0 → s.line.service.inSession = false →
          r.panel = cleared kind ∧ r.marks = s.marks ∧ r.line = s.line
          ∧ (s.mayTransmit = true → s.bus.queue.length < 8 →
              r.bus.hasNotice 0x01 s.clock.tick s.emitOrZero (bytePair line 1)))
      ∧ (s.startup.id ≠ 0 → s.line.service.inSession = true →
          32 ≤ s.marks.table.length + ownOpens s.bus.queue →
          r.panel = cleared kind ∧ r.line = s.line
          ∧ r.marks = { s.marks with counters :=
              { s.marks.counters with refusedFull := bump s.marks.counters.refusedFull } }
          ∧ (s.bus.queue.length < 8 →
              r.bus.hasNotice 0x02 s.clock.tick s.emitOrZero (bytePair 0 line)))

/-- A QUERY received good at its target, outside TEST and with room in the queue, is answered with a
REPORT to its source of 17 bytes: the byte of the QUERY and the 16 bytes of the group and part, of the
state at the reception, in which the station has taken note of the good frame and of its source. The 16
bytes are the items that the table of R176 lists for the group and part, each most significant byte first,
and zeros after them. The model's part in it: page 0 and frame 0 of a fault record with no fault
(notes/assumptions/37.md), and that receive-suspect is cleared before the QUERY is answered (21.md). -/
def Obligations.QueryAnsweredWithReport : Prop :=
  ∀ (s : State) (group : BitVec 4) (part : Bool) (src : StationId) (straps : StationId)
    (listed : List Page), src ≠ 0 → s.startup.id ≠ 0 → group.toNat ≤ 4 →
    s.hasReadGood (lineFrame src (.query group part) s.startup.id) → s.line.service ≠ .test →
    s.bus.queue.length < 7 →
    let u := ((s.setBus { s.bus with activity := .quiet }).readGoodFrame).hear src
    let c := u.cfg
    let bits (l : List Bool) : Nat := (l.zipIdx.map (fun (b, i) => if b then 2 ^ i else 0)).sum
    let service := match u.line.service with
      | .test => 0
      | .lineup => 1
      | .build => 2
      | .full => 3
      | .drain => 4
      | .join => 5
      | .bypass => 6
    let cause := match u.startup.cause.last with
      | .power => 1
      | .pin => 2
      | .bus => 3
    let fault := match u.memory.fault.map (·.kind) with
      | none => 0
      | some .checkFail => 1
      | some .mapFault => 2
      | some .testFail => 3
    let two (l : List Nat) : List (Nat × Nat) := l.map (fun x => (2, x))
    let one (l : List Nat) : List (Nat × Nat) := l.map (fun x => (1, x))
    let items : List (Nat × Nat) := match group.toNat, part with
      | 0, false => [(2, 0x1C7), (2, 0x2408)]
          ++ one [2, u.startup.id.toNat, c.lane, service, cause, u.startup.cause.restarts
                , bits [u.startup.cause.seenPower, u.startup.cause.seenPin, u.startup.cause.seenBus]
                , bits [u.startup.flags.default, u.startup.flags.clamp, u.startup.flags.targetClamped]]
          ++ two [u.eff.target, u.eff.digest.toNat]
      | 0, true => one [c.rateCode, u.eff.guard, c.build, c.drain, c.beacon, c.cellPages, c.lookback, c.tail]
          ++ two [u.eff.dumpLength, c.maxCover, c.maxLock]
          ++ one [c.coverLanes.toNat, bits [c.blank, c.autoJoin]]
      | 1, false =>
        let k := u.ingest.counters
        two [k.stored, k.late, k.ahead, k.dup, k.wrongLane, k.truncated, k.short, k.headerBad]
      | 1, true => two [u.ingest.counters.ringFull, u.memory.alloc.length] ++ [(4, u.memory.free)]
          ++ two [u.memory.head.toNat, u.memory.tail.toNat]
      | 2, false =>
        let k := u.output.counters
        two [k.missing, k.damaged, k.lateRead, k.holds, k.drops, k.joinSkips]
          ++ one [u.memory.bad.length, fault]
          ++ [(2, (u.memory.fault.map (·.page.toNat)).getD 0)]
      | 2, true => [(4, (u.memory.fault.map (·.frame.toNat)).getD 0)]
          ++ two [u.memory.counters.pageFaults, u.memory.counters.unlisted]
      | 3, false =>
        let k := u.marks.counters
        two [k.applied, k.refusedFull, k.tooLate, k.trimmed, k.closesIgnored, k.retractsLate, k.gaps
            , k.conflicts]
      | 3, true => [(2, u.marks.counters.laneForced), (1, u.marks.table.length)
          , (2, u.marks.cueCount.toNat), (4, u.line.removed.toNat)]
          ++ one [u.marks.nextSeq.toNat, u.line.sessions.length]
      | 4, false =>
        let k := u.bus.counters
        two [k.sent, k.objectedAttempts, k.abandoned, k.objectionsRaised, k.queueDiscards
            , k.idClashes, k.sessionIgnored, u.peers.counters.alignFaults]
      | _, _ => [(2, u.peers.counters.staleBeacons)]
          ++ one [u.peers.roster.length, (u.peers.roster.filter (·.alignFault)).length
                , u.bus.queue.length, bits [u.bus.suspect, u.bus.clashSeen, u.bus.helloOwed]
                , (u.peers.reference.map (·.toNat)).getD 0
                , bits ((List.range 8).map (fun n =>
                    u.peers.roster.any (fun p => decide (p.lane = some (BitVec.ofNat 8 n)))))]
    let listed16 : List Byte := items.flatMap (fun (w, x) =>
      (List.range w).map (fun i => BitVec.ofNat 8 (x / 256 ^ (w - 1 - i))))
    let body := listed16 ++ List.replicate (16 - listed16.length) 0
    ∃ t, exec (.objectionSlotEnd false straps listed) s = .next t
      ∧ (∃ f ∈ t.bus.queue, f.target = src ∧ f.msg = .report (groupByte group part :: body))
      ∧ body.length = 16 ∧ t.line = s.line ∧ t.marks = s.marks ∧ t.startup = s.startup

/-! ### Whole-machine invariants -/

/-- The clock's parts agree, the station is in TEST exactly until start-up is done, a held station stands
reset, the join record, reference and estimate are there in JOIN only, the reference is the one that the
roster gives, D is the tick number less E, and the tallies READY, DUMP-AVAIL, ALIGN and SERVICE show their
conditions: kept by every step. -/
def Obligations.ControlStateKept : Prop :=
  ∀ s t : State, s.clockOk → s.phaseOk → s.heldOk → s.joinOk → s.scheduleOk → step s = .next t →
    t.clockOk ∧ t.phaseOk ∧ t.heldOk ∧ t.joinOk ∧ t.scheduleOk
      ∧ (s.referenceOk → t.referenceOk) ∧ (s.talliesOk → t.talliesOk)

/-- Every 16-bit counter stays at 65,535 once there: none passes it, and none falls at a step that takes
no reset. -/
def Obligations.CountersSaturate : Prop :=
  ∀ s t : State, s.countersOk → step s = .next t → t.countersOk
    ∧ ((∀ c rest, s.pending = c :: rest → s.resetBy c = false) →
        ∀ p ∈ s.counters.zip t.counters, p.1 ≤ p.2)
end

