-- ==== Sys2Proof/Laws/FrameOrder.lean ====
section
/-! SUPPORT. The order of frame numbers (R1), the earlier and the later of two, and what the operations
that ask for it do where R1 gives none. -/

namespace Sys2Proof.Machine

/-! ### The order -/

/-- The order read off the difference (R1). -/
theorem before_iff (x y : FrameNo) : before x y = true ↔ 1 ≤ (y - x).toNat ∧ (y - x).toNat ≤ 2147483647 := by
  simp only [before, Bool.and_eq_true, decide_eq_true_iff]

/-- No frame is before itself. -/
@[simp] theorem before_self (x : FrameNo) : before x x = false := by simp [before]

/-- A frame is at or before itself. -/
@[simp] theorem atOrBefore_self (x : FrameNo) : atOrBefore x x = true := by simp [atOrBefore]

/-- Of two frames one at most is before the other. -/
theorem before_asymm (x y : FrameNo) (h : before x y = true) : before y x = false := by
  rw [before_iff] at h
  rw [Bool.eq_false_iff, ne_eq, before_iff]
  bv_omega

/-- A frame is before the next. -/
@[simp] theorem before_next (x : FrameNo) : before x (x + 1) = true := by
  rw [before_iff]; bv_omega

/-- Two frames that are not equal and of which neither is before the other lie exactly 2^31 apart. -/
theorem unordered_iff (x y : FrameNo) (h : x ≠ y) :
    before x y = false ∧ before y x = false ↔ y = x + 0x80000000 := by
  rw [Bool.eq_false_iff, Bool.eq_false_iff, ne_eq, ne_eq, before_iff, before_iff]
  bv_omega

/-! ### The earlier and the later -/

/-- The earlier of two frames is one of them, and the other is not before it. -/
theorem earlier_spec (x y : FrameNo) : (earlier x y = x ∧ before y x = false)
    ∨ (earlier x y = y ∧ before y x = true) := by
  unfold earlier
  split
  · exact .inr ⟨rfl, ‹_›⟩
  · exact .inl ⟨rfl, Bool.eq_false_iff.mpr ‹_›⟩

/-- The later of two frames is one of them, and it is not before the other. -/
theorem later_spec (x y : FrameNo) : (later x y = x ∧ before x y = false)
    ∨ (later x y = y ∧ before x y = true) := by
  unfold later
  split
  · exact .inr ⟨rfl, ‹_›⟩
  · exact .inl ⟨rfl, Bool.eq_false_iff.mpr ‹_›⟩

/-! ### Where R1 gives no order (notes/assumptions/31.md) -/

/-- A session frame whose apply-at tick lies 2^31 from the tick number has no effect outside BYPASS. -/
theorem State.receiveSession_unordered (s : State) (kind : SessionKind) (h : FrameNo) (origin : StationId)
    (hh : s.clock.tick = some h) (hb : s.line.service ≠ .bypass) :
    s.receiveSession kind (h + 0x80000000) origin = s := by
  have hne : h ≠ h + 0x80000000 := by bv_omega
  obtain ⟨h1, h2⟩ := (unordered_iff h (h + 0x80000000) hne).mpr rfl
  have h3 : atOrBefore (h + 0x80000000) h = false := by
    simp only [atOrBefore, h2, Bool.or_false, beq_eq_false_iff_ne]
    exact hne.symm
  simp only [State.receiveSession, hh, h1, h3, if_neg hb, Bool.false_eq_true, if_false]
  split <;> rfl

/-! ### A frame lost without a notice -/

/-- Nothing is put in the place of a frame that is lost without a notice (R138, R175). -/
theorem State.abandonNotice_of_lost (s : State) (f : TxFrame) (h : f.msg.lostUnnoticed = true) :
    s.abandonNotice f = s := if_pos h

end Sys2Proof.Machine
end

