-- ==== Sys2Proof/Laws/State.lean ====
section
/-! SUPPORT. One lemma per field per update of a block of State, and the same for the updates of one
part of a block, so that no proof unfolds a record update. -/

namespace Sys2Proof.Machine

variable (s : State)

/-! #### setClock -/

@[simp] theorem State.setClock_clock (x : ProgramClock) : (s.setClock x).clock = x := rfl
@[simp] theorem State.setClock_line (x : ProgramClock) : (s.setClock x).line = s.line := rfl
@[simp] theorem State.setClock_marks (x : ProgramClock) : (s.setClock x).marks = s.marks := rfl
@[simp] theorem State.setClock_ingest (x : ProgramClock) : (s.setClock x).ingest = s.ingest := rfl
@[simp] theorem State.setClock_memory (x : ProgramClock) : (s.setClock x).memory = s.memory := rfl
@[simp] theorem State.setClock_output (x : ProgramClock) : (s.setClock x).output = s.output := rfl
@[simp] theorem State.setClock_bus (x : ProgramClock) : (s.setClock x).bus = s.bus := rfl
@[simp] theorem State.setClock_peers (x : ProgramClock) : (s.setClock x).peers = s.peers := rfl
@[simp] theorem State.setClock_panel (x : ProgramClock) : (s.setClock x).panel = s.panel := rfl
@[simp] theorem State.setClock_startup (x : ProgramClock) : (s.setClock x).startup = s.startup := rfl
@[simp] theorem State.setClock_pending (x : ProgramClock) : (s.setClock x).pending = s.pending := rfl

/-! #### setLine -/

@[simp] theorem State.setLine_clock (x : DelayLine) : (s.setLine x).clock = s.clock := rfl
@[simp] theorem State.setLine_line (x : DelayLine) : (s.setLine x).line = x := rfl
@[simp] theorem State.setLine_marks (x : DelayLine) : (s.setLine x).marks = s.marks := rfl
@[simp] theorem State.setLine_ingest (x : DelayLine) : (s.setLine x).ingest = s.ingest := rfl
@[simp] theorem State.setLine_memory (x : DelayLine) : (s.setLine x).memory = s.memory := rfl
@[simp] theorem State.setLine_output (x : DelayLine) : (s.setLine x).output = s.output := rfl
@[simp] theorem State.setLine_bus (x : DelayLine) : (s.setLine x).bus = s.bus := rfl
@[simp] theorem State.setLine_peers (x : DelayLine) : (s.setLine x).peers = s.peers := rfl
@[simp] theorem State.setLine_panel (x : DelayLine) : (s.setLine x).panel = s.panel := rfl
@[simp] theorem State.setLine_startup (x : DelayLine) : (s.setLine x).startup = s.startup := rfl
@[simp] theorem State.setLine_pending (x : DelayLine) : (s.setLine x).pending = s.pending := rfl

/-! #### setMarks -/

@[simp] theorem State.setMarks_clock (x : MarkUnit) : (s.setMarks x).clock = s.clock := rfl
@[simp] theorem State.setMarks_line (x : MarkUnit) : (s.setMarks x).line = s.line := rfl
@[simp] theorem State.setMarks_marks (x : MarkUnit) : (s.setMarks x).marks = x := rfl
@[simp] theorem State.setMarks_ingest (x : MarkUnit) : (s.setMarks x).ingest = s.ingest := rfl
@[simp] theorem State.setMarks_memory (x : MarkUnit) : (s.setMarks x).memory = s.memory := rfl
@[simp] theorem State.setMarks_output (x : MarkUnit) : (s.setMarks x).output = s.output := rfl
@[simp] theorem State.setMarks_bus (x : MarkUnit) : (s.setMarks x).bus = s.bus := rfl
@[simp] theorem State.setMarks_peers (x : MarkUnit) : (s.setMarks x).peers = s.peers := rfl
@[simp] theorem State.setMarks_panel (x : MarkUnit) : (s.setMarks x).panel = s.panel := rfl
@[simp] theorem State.setMarks_startup (x : MarkUnit) : (s.setMarks x).startup = s.startup := rfl
@[simp] theorem State.setMarks_pending (x : MarkUnit) : (s.setMarks x).pending = s.pending := rfl

/-! #### setIngest -/

@[simp] theorem State.setIngest_clock (x : Ingest) : (s.setIngest x).clock = s.clock := rfl
@[simp] theorem State.setIngest_line (x : Ingest) : (s.setIngest x).line = s.line := rfl
@[simp] theorem State.setIngest_marks (x : Ingest) : (s.setIngest x).marks = s.marks := rfl
@[simp] theorem State.setIngest_ingest (x : Ingest) : (s.setIngest x).ingest = x := rfl
@[simp] theorem State.setIngest_memory (x : Ingest) : (s.setIngest x).memory = s.memory := rfl
@[simp] theorem State.setIngest_output (x : Ingest) : (s.setIngest x).output = s.output := rfl
@[simp] theorem State.setIngest_bus (x : Ingest) : (s.setIngest x).bus = s.bus := rfl
@[simp] theorem State.setIngest_peers (x : Ingest) : (s.setIngest x).peers = s.peers := rfl
@[simp] theorem State.setIngest_panel (x : Ingest) : (s.setIngest x).panel = s.panel := rfl
@[simp] theorem State.setIngest_startup (x : Ingest) : (s.setIngest x).startup = s.startup := rfl
@[simp] theorem State.setIngest_pending (x : Ingest) : (s.setIngest x).pending = s.pending := rfl

/-! #### setMemory -/

@[simp] theorem State.setMemory_clock (x : DelayMemory) : (s.setMemory x).clock = s.clock := rfl
@[simp] theorem State.setMemory_line (x : DelayMemory) : (s.setMemory x).line = s.line := rfl
@[simp] theorem State.setMemory_marks (x : DelayMemory) : (s.setMemory x).marks = s.marks := rfl
@[simp] theorem State.setMemory_ingest (x : DelayMemory) : (s.setMemory x).ingest = s.ingest := rfl
@[simp] theorem State.setMemory_memory (x : DelayMemory) : (s.setMemory x).memory = x := rfl
@[simp] theorem State.setMemory_output (x : DelayMemory) : (s.setMemory x).output = s.output := rfl
@[simp] theorem State.setMemory_bus (x : DelayMemory) : (s.setMemory x).bus = s.bus := rfl
@[simp] theorem State.setMemory_peers (x : DelayMemory) : (s.setMemory x).peers = s.peers := rfl
@[simp] theorem State.setMemory_panel (x : DelayMemory) : (s.setMemory x).panel = s.panel := rfl
@[simp] theorem State.setMemory_startup (x : DelayMemory) : (s.setMemory x).startup = s.startup := rfl
@[simp] theorem State.setMemory_pending (x : DelayMemory) : (s.setMemory x).pending = s.pending := rfl

/-! #### setOutput -/

@[simp] theorem State.setOutput_clock (x : OutputStage) : (s.setOutput x).clock = s.clock := rfl
@[simp] theorem State.setOutput_line (x : OutputStage) : (s.setOutput x).line = s.line := rfl
@[simp] theorem State.setOutput_marks (x : OutputStage) : (s.setOutput x).marks = s.marks := rfl
@[simp] theorem State.setOutput_ingest (x : OutputStage) : (s.setOutput x).ingest = s.ingest := rfl
@[simp] theorem State.setOutput_memory (x : OutputStage) : (s.setOutput x).memory = s.memory := rfl
@[simp] theorem State.setOutput_output (x : OutputStage) : (s.setOutput x).output = x := rfl
@[simp] theorem State.setOutput_bus (x : OutputStage) : (s.setOutput x).bus = s.bus := rfl
@[simp] theorem State.setOutput_peers (x : OutputStage) : (s.setOutput x).peers = s.peers := rfl
@[simp] theorem State.setOutput_panel (x : OutputStage) : (s.setOutput x).panel = s.panel := rfl
@[simp] theorem State.setOutput_startup (x : OutputStage) : (s.setOutput x).startup = s.startup := rfl
@[simp] theorem State.setOutput_pending (x : OutputStage) : (s.setOutput x).pending = s.pending := rfl

/-! #### setBus -/

@[simp] theorem State.setBus_clock (x : BusController) : (s.setBus x).clock = s.clock := rfl
@[simp] theorem State.setBus_line (x : BusController) : (s.setBus x).line = s.line := rfl
@[simp] theorem State.setBus_marks (x : BusController) : (s.setBus x).marks = s.marks := rfl
@[simp] theorem State.setBus_ingest (x : BusController) : (s.setBus x).ingest = s.ingest := rfl
@[simp] theorem State.setBus_memory (x : BusController) : (s.setBus x).memory = s.memory := rfl
@[simp] theorem State.setBus_output (x : BusController) : (s.setBus x).output = s.output := rfl
@[simp] theorem State.setBus_bus (x : BusController) : (s.setBus x).bus = x := rfl
@[simp] theorem State.setBus_peers (x : BusController) : (s.setBus x).peers = s.peers := rfl
@[simp] theorem State.setBus_panel (x : BusController) : (s.setBus x).panel = s.panel := rfl
@[simp] theorem State.setBus_startup (x : BusController) : (s.setBus x).startup = s.startup := rfl
@[simp] theorem State.setBus_pending (x : BusController) : (s.setBus x).pending = s.pending := rfl

/-! #### setPeers -/

@[simp] theorem State.setPeers_clock (x : PeerMonitor) : (s.setPeers x).clock = s.clock := rfl
@[simp] theorem State.setPeers_line (x : PeerMonitor) : (s.setPeers x).line = s.line := rfl
@[simp] theorem State.setPeers_marks (x : PeerMonitor) : (s.setPeers x).marks = s.marks := rfl
@[simp] theorem State.setPeers_ingest (x : PeerMonitor) : (s.setPeers x).ingest = s.ingest := rfl
@[simp] theorem State.setPeers_memory (x : PeerMonitor) : (s.setPeers x).memory = s.memory := rfl
@[simp] theorem State.setPeers_output (x : PeerMonitor) : (s.setPeers x).output = s.output := rfl
@[simp] theorem State.setPeers_bus (x : PeerMonitor) : (s.setPeers x).bus = s.bus := rfl
@[simp] theorem State.setPeers_peers (x : PeerMonitor) : (s.setPeers x).peers = x := rfl
@[simp] theorem State.setPeers_panel (x : PeerMonitor) : (s.setPeers x).panel = s.panel := rfl
@[simp] theorem State.setPeers_startup (x : PeerMonitor) : (s.setPeers x).startup = s.startup := rfl
@[simp] theorem State.setPeers_pending (x : PeerMonitor) : (s.setPeers x).pending = s.pending := rfl

/-! #### setPanel -/

@[simp] theorem State.setPanel_clock (x : PanelUnit) : (s.setPanel x).clock = s.clock := rfl
@[simp] theorem State.setPanel_line (x : PanelUnit) : (s.setPanel x).line = s.line := rfl
@[simp] theorem State.setPanel_marks (x : PanelUnit) : (s.setPanel x).marks = s.marks := rfl
@[simp] theorem State.setPanel_ingest (x : PanelUnit) : (s.setPanel x).ingest = s.ingest := rfl
@[simp] theorem State.setPanel_memory (x : PanelUnit) : (s.setPanel x).memory = s.memory := rfl
@[simp] theorem State.setPanel_output (x : PanelUnit) : (s.setPanel x).output = s.output := rfl
@[simp] theorem State.setPanel_bus (x : PanelUnit) : (s.setPanel x).bus = s.bus := rfl
@[simp] theorem State.setPanel_peers (x : PanelUnit) : (s.setPanel x).peers = s.peers := rfl
@[simp] theorem State.setPanel_panel (x : PanelUnit) : (s.setPanel x).panel = x := rfl
@[simp] theorem State.setPanel_startup (x : PanelUnit) : (s.setPanel x).startup = s.startup := rfl
@[simp] theorem State.setPanel_pending (x : PanelUnit) : (s.setPanel x).pending = s.pending := rfl

/-! #### setStartup -/

@[simp] theorem State.setStartup_clock (x : StartUp) : (s.setStartup x).clock = s.clock := rfl
@[simp] theorem State.setStartup_line (x : StartUp) : (s.setStartup x).line = s.line := rfl
@[simp] theorem State.setStartup_marks (x : StartUp) : (s.setStartup x).marks = s.marks := rfl
@[simp] theorem State.setStartup_ingest (x : StartUp) : (s.setStartup x).ingest = s.ingest := rfl
@[simp] theorem State.setStartup_memory (x : StartUp) : (s.setStartup x).memory = s.memory := rfl
@[simp] theorem State.setStartup_output (x : StartUp) : (s.setStartup x).output = s.output := rfl
@[simp] theorem State.setStartup_bus (x : StartUp) : (s.setStartup x).bus = s.bus := rfl
@[simp] theorem State.setStartup_peers (x : StartUp) : (s.setStartup x).peers = s.peers := rfl
@[simp] theorem State.setStartup_panel (x : StartUp) : (s.setStartup x).panel = s.panel := rfl
@[simp] theorem State.setStartup_startup (x : StartUp) : (s.setStartup x).startup = x := rfl
@[simp] theorem State.setStartup_pending (x : StartUp) : (s.setStartup x).pending = s.pending := rfl

/-! #### setPending -/

@[simp] theorem State.setPending_clock (x : List Instr) : (s.setPending x).clock = s.clock := rfl
@[simp] theorem State.setPending_line (x : List Instr) : (s.setPending x).line = s.line := rfl
@[simp] theorem State.setPending_marks (x : List Instr) : (s.setPending x).marks = s.marks := rfl
@[simp] theorem State.setPending_ingest (x : List Instr) : (s.setPending x).ingest = s.ingest := rfl
@[simp] theorem State.setPending_memory (x : List Instr) : (s.setPending x).memory = s.memory := rfl
@[simp] theorem State.setPending_output (x : List Instr) : (s.setPending x).output = s.output := rfl
@[simp] theorem State.setPending_bus (x : List Instr) : (s.setPending x).bus = s.bus := rfl
@[simp] theorem State.setPending_peers (x : List Instr) : (s.setPending x).peers = s.peers := rfl
@[simp] theorem State.setPending_panel (x : List Instr) : (s.setPending x).panel = s.panel := rfl
@[simp] theorem State.setPending_startup (x : List Instr) : (s.setPending x).startup = s.startup := rfl
@[simp] theorem State.setPending_pending (x : List Instr) : (s.setPending x).pending = x := rfl

/-! #### What is read of a state, under the updates that leave it -/

@[simp] theorem State.setClock_cfg (x : ProgramClock) : (s.setClock x).cfg = s.cfg := rfl
@[simp] theorem State.setLine_cfg (x : DelayLine) : (s.setLine x).cfg = s.cfg := rfl
@[simp] theorem State.setMarks_cfg (x : MarkUnit) : (s.setMarks x).cfg = s.cfg := rfl
@[simp] theorem State.setIngest_cfg (x : Ingest) : (s.setIngest x).cfg = s.cfg := rfl
@[simp] theorem State.setMemory_cfg (x : DelayMemory) : (s.setMemory x).cfg = s.cfg := rfl
@[simp] theorem State.setOutput_cfg (x : OutputStage) : (s.setOutput x).cfg = s.cfg := rfl
@[simp] theorem State.setBus_cfg (x : BusController) : (s.setBus x).cfg = s.cfg := rfl
@[simp] theorem State.setPeers_cfg (x : PeerMonitor) : (s.setPeers x).cfg = s.cfg := rfl
@[simp] theorem State.setPanel_cfg (x : PanelUnit) : (s.setPanel x).cfg = s.cfg := rfl
@[simp] theorem State.setPending_cfg (x : List Instr) : (s.setPending x).cfg = s.cfg := rfl

@[simp] theorem State.setClock_eff (x : ProgramClock) : (s.setClock x).eff = s.eff := rfl
@[simp] theorem State.setLine_eff (x : DelayLine) : (s.setLine x).eff = s.eff := rfl
@[simp] theorem State.setMarks_eff (x : MarkUnit) : (s.setMarks x).eff = s.eff := rfl
@[simp] theorem State.setIngest_eff (x : Ingest) : (s.setIngest x).eff = s.eff := rfl
@[simp] theorem State.setMemory_eff (x : DelayMemory) : (s.setMemory x).eff = s.eff := rfl
@[simp] theorem State.setOutput_eff (x : OutputStage) : (s.setOutput x).eff = s.eff := rfl
@[simp] theorem State.setBus_eff (x : BusController) : (s.setBus x).eff = s.eff := rfl
@[simp] theorem State.setPeers_eff (x : PeerMonitor) : (s.setPeers x).eff = s.eff := rfl
@[simp] theorem State.setPanel_eff (x : PanelUnit) : (s.setPanel x).eff = s.eff := rfl
@[simp] theorem State.setPending_eff (x : List Instr) : (s.setPending x).eff = s.eff := rfl

@[simp] theorem State.setClock_emitOrZero (x : ProgramClock) : (s.setClock x).emitOrZero = s.emitOrZero := rfl
@[simp] theorem State.setMarks_emitOrZero (x : MarkUnit) : (s.setMarks x).emitOrZero = s.emitOrZero := rfl
@[simp] theorem State.setIngest_emitOrZero (x : Ingest) : (s.setIngest x).emitOrZero = s.emitOrZero := rfl
@[simp] theorem State.setMemory_emitOrZero (x : DelayMemory) : (s.setMemory x).emitOrZero = s.emitOrZero := rfl
@[simp] theorem State.setOutput_emitOrZero (x : OutputStage) : (s.setOutput x).emitOrZero = s.emitOrZero := rfl
@[simp] theorem State.setBus_emitOrZero (x : BusController) : (s.setBus x).emitOrZero = s.emitOrZero := rfl
@[simp] theorem State.setPeers_emitOrZero (x : PeerMonitor) : (s.setPeers x).emitOrZero = s.emitOrZero := rfl
@[simp] theorem State.setPanel_emitOrZero (x : PanelUnit) : (s.setPanel x).emitOrZero = s.emitOrZero := rfl
@[simp] theorem State.setStartup_emitOrZero (x : StartUp) : (s.setStartup x).emitOrZero = s.emitOrZero := rfl
@[simp] theorem State.setPending_emitOrZero (x : List Instr) : (s.setPending x).emitOrZero = s.emitOrZero := rfl

@[simp] theorem State.setClock_mayTransmit (x : ProgramClock) : (s.setClock x).mayTransmit = s.mayTransmit := rfl
@[simp] theorem State.setMarks_mayTransmit (x : MarkUnit) : (s.setMarks x).mayTransmit = s.mayTransmit := rfl
@[simp] theorem State.setIngest_mayTransmit (x : Ingest) : (s.setIngest x).mayTransmit = s.mayTransmit := rfl
@[simp] theorem State.setMemory_mayTransmit (x : DelayMemory) : (s.setMemory x).mayTransmit = s.mayTransmit := rfl
@[simp] theorem State.setOutput_mayTransmit (x : OutputStage) : (s.setOutput x).mayTransmit = s.mayTransmit := rfl
@[simp] theorem State.setBus_mayTransmit (x : BusController) : (s.setBus x).mayTransmit = s.mayTransmit := rfl
@[simp] theorem State.setPeers_mayTransmit (x : PeerMonitor) : (s.setPeers x).mayTransmit = s.mayTransmit := rfl
@[simp] theorem State.setPanel_mayTransmit (x : PanelUnit) : (s.setPanel x).mayTransmit = s.mayTransmit := rfl
@[simp] theorem State.setPending_mayTransmit (x : List Instr) : (s.setPending x).mayTransmit = s.mayTransmit := rfl

@[simp] theorem State.setClock_laneByte (x : ProgramClock) : (s.setClock x).laneByte = s.laneByte := rfl
@[simp] theorem State.setLine_laneByte (x : DelayLine) : (s.setLine x).laneByte = s.laneByte := rfl
@[simp] theorem State.setMarks_laneByte (x : MarkUnit) : (s.setMarks x).laneByte = s.laneByte := rfl
@[simp] theorem State.setIngest_laneByte (x : Ingest) : (s.setIngest x).laneByte = s.laneByte := rfl
@[simp] theorem State.setMemory_laneByte (x : DelayMemory) : (s.setMemory x).laneByte = s.laneByte := rfl
@[simp] theorem State.setOutput_laneByte (x : OutputStage) : (s.setOutput x).laneByte = s.laneByte := rfl
@[simp] theorem State.setBus_laneByte (x : BusController) : (s.setBus x).laneByte = s.laneByte := rfl
@[simp] theorem State.setPeers_laneByte (x : PeerMonitor) : (s.setPeers x).laneByte = s.laneByte := rfl
@[simp] theorem State.setPanel_laneByte (x : PanelUnit) : (s.setPanel x).laneByte = s.laneByte := rfl
@[simp] theorem State.setPending_laneByte (x : List Instr) : (s.setPending x).laneByte = s.laneByte := rfl

/-! #### Updates of one part of a block -/

@[simp] theorem State.setTable_clock (t : List Mark) : (s.setTable t).clock = s.clock := rfl
@[simp] theorem State.setTable_line (t : List Mark) : (s.setTable t).line = s.line := rfl
@[simp] theorem State.setTable_marks (t : List Mark) : (s.setTable t).marks = { s.marks with table := t } :=
  rfl
@[simp] theorem State.setTable_ingest (t : List Mark) : (s.setTable t).ingest = s.ingest := rfl
@[simp] theorem State.setTable_memory (t : List Mark) : (s.setTable t).memory = s.memory := rfl
@[simp] theorem State.setTable_output (t : List Mark) : (s.setTable t).output = s.output := rfl
@[simp] theorem State.setTable_bus (t : List Mark) : (s.setTable t).bus = s.bus := rfl
@[simp] theorem State.setTable_peers (t : List Mark) : (s.setTable t).peers = s.peers := rfl
@[simp] theorem State.setTable_panel (t : List Mark) : (s.setTable t).panel = s.panel := rfl
@[simp] theorem State.setTable_startup (t : List Mark) : (s.setTable t).startup = s.startup := rfl
@[simp] theorem State.setTable_pending (t : List Mark) : (s.setTable t).pending = s.pending := rfl
@[simp] theorem State.setTable_cfg (t : List Mark) : (s.setTable t).cfg = s.cfg := rfl
@[simp] theorem State.setTable_eff (t : List Mark) : (s.setTable t).eff = s.eff := rfl
@[simp] theorem State.setTable_emitOrZero (t : List Mark) : (s.setTable t).emitOrZero = s.emitOrZero := rfl
@[simp] theorem State.setTable_mayTransmit (t : List Mark) : (s.setTable t).mayTransmit = s.mayTransmit := rfl
@[simp] theorem State.setTable_laneByte (t : List Mark) : (s.setTable t).laneByte = s.laneByte := rfl

@[simp] theorem State.setMarkCounters_clock (c : MarkCounters) : (s.setMarkCounters c).clock = s.clock :=
  rfl
@[simp] theorem State.setMarkCounters_line (c : MarkCounters) : (s.setMarkCounters c).line = s.line :=
  rfl
@[simp] theorem State.setMarkCounters_marks (c : MarkCounters) : (s.setMarkCounters c).marks = { s.marks with counters := c } :=
  rfl
@[simp] theorem State.setMarkCounters_ingest (c : MarkCounters) : (s.setMarkCounters c).ingest = s.ingest :=
  rfl
@[simp] theorem State.setMarkCounters_memory (c : MarkCounters) : (s.setMarkCounters c).memory = s.memory :=
  rfl
@[simp] theorem State.setMarkCounters_output (c : MarkCounters) : (s.setMarkCounters c).output = s.output :=
  rfl
@[simp] theorem State.setMarkCounters_bus (c : MarkCounters) : (s.setMarkCounters c).bus = s.bus :=
  rfl
@[simp] theorem State.setMarkCounters_peers (c : MarkCounters) : (s.setMarkCounters c).peers = s.peers :=
  rfl
@[simp] theorem State.setMarkCounters_panel (c : MarkCounters) : (s.setMarkCounters c).panel = s.panel :=
  rfl
@[simp] theorem State.setMarkCounters_startup (c : MarkCounters) : (s.setMarkCounters c).startup = s.startup :=
  rfl
@[simp] theorem State.setMarkCounters_pending (c : MarkCounters) : (s.setMarkCounters c).pending = s.pending :=
  rfl
@[simp] theorem State.setMarkCounters_cfg (c : MarkCounters) : (s.setMarkCounters c).cfg = s.cfg := rfl
@[simp] theorem State.setMarkCounters_eff (c : MarkCounters) : (s.setMarkCounters c).eff = s.eff := rfl
@[simp] theorem State.setMarkCounters_emitOrZero (c : MarkCounters) : (s.setMarkCounters c).emitOrZero = s.emitOrZero := rfl
@[simp] theorem State.setMarkCounters_mayTransmit (c : MarkCounters) : (s.setMarkCounters c).mayTransmit = s.mayTransmit := rfl
@[simp] theorem State.setMarkCounters_laneByte (c : MarkCounters) : (s.setMarkCounters c).laneByte = s.laneByte := rfl

@[simp] theorem State.setRoster_clock (r : List Peer) : (s.setRoster r).clock = s.clock := rfl
@[simp] theorem State.setRoster_line (r : List Peer) : (s.setRoster r).line = s.line := rfl
@[simp] theorem State.setRoster_marks (r : List Peer) : (s.setRoster r).marks = s.marks := rfl
@[simp] theorem State.setRoster_ingest (r : List Peer) : (s.setRoster r).ingest = s.ingest := rfl
@[simp] theorem State.setRoster_memory (r : List Peer) : (s.setRoster r).memory = s.memory := rfl
@[simp] theorem State.setRoster_output (r : List Peer) : (s.setRoster r).output = s.output := rfl
@[simp] theorem State.setRoster_bus (r : List Peer) : (s.setRoster r).bus = s.bus := rfl
@[simp] theorem State.setRoster_peers (r : List Peer) : (s.setRoster r).peers = { s.peers with roster := r } :=
  rfl
@[simp] theorem State.setRoster_panel (r : List Peer) : (s.setRoster r).panel = s.panel := rfl
@[simp] theorem State.setRoster_startup (r : List Peer) : (s.setRoster r).startup = s.startup := rfl
@[simp] theorem State.setRoster_pending (r : List Peer) : (s.setRoster r).pending = s.pending := rfl
@[simp] theorem State.setRoster_cfg (r : List Peer) : (s.setRoster r).cfg = s.cfg := rfl
@[simp] theorem State.setRoster_eff (r : List Peer) : (s.setRoster r).eff = s.eff := rfl
@[simp] theorem State.setRoster_emitOrZero (r : List Peer) : (s.setRoster r).emitOrZero = s.emitOrZero := rfl
@[simp] theorem State.setRoster_mayTransmit (r : List Peer) : (s.setRoster r).mayTransmit = s.mayTransmit := rfl
@[simp] theorem State.setRoster_laneByte (r : List Peer) : (s.setRoster r).laneByte = s.laneByte := rfl

@[simp] theorem State.setStaging_clock (g : Option Staging) : (s.setStaging g).clock = s.clock :=
  rfl
@[simp] theorem State.setStaging_line (g : Option Staging) : (s.setStaging g).line = s.line := rfl
@[simp] theorem State.setStaging_marks (g : Option Staging) : (s.setStaging g).marks = s.marks :=
  rfl
@[simp] theorem State.setStaging_ingest (g : Option Staging) : (s.setStaging g).ingest = s.ingest :=
  rfl
@[simp] theorem State.setStaging_memory (g : Option Staging) : (s.setStaging g).memory = s.memory :=
  rfl
@[simp] theorem State.setStaging_output (g : Option Staging) : (s.setStaging g).output = { s.output with staging := g } :=
  rfl
@[simp] theorem State.setStaging_bus (g : Option Staging) : (s.setStaging g).bus = s.bus := rfl
@[simp] theorem State.setStaging_peers (g : Option Staging) : (s.setStaging g).peers = s.peers :=
  rfl
@[simp] theorem State.setStaging_panel (g : Option Staging) : (s.setStaging g).panel = s.panel :=
  rfl
@[simp] theorem State.setStaging_startup (g : Option Staging) : (s.setStaging g).startup = s.startup :=
  rfl
@[simp] theorem State.setStaging_pending (g : Option Staging) : (s.setStaging g).pending = s.pending :=
  rfl
@[simp] theorem State.setStaging_cfg (g : Option Staging) : (s.setStaging g).cfg = s.cfg := rfl
@[simp] theorem State.setStaging_eff (g : Option Staging) : (s.setStaging g).eff = s.eff := rfl
@[simp] theorem State.setStaging_emitOrZero (g : Option Staging) : (s.setStaging g).emitOrZero = s.emitOrZero := rfl
@[simp] theorem State.setStaging_mayTransmit (g : Option Staging) : (s.setStaging g).mayTransmit = s.mayTransmit := rfl
@[simp] theorem State.setStaging_laneByte (g : Option Staging) : (s.setStaging g).laneByte = s.laneByte := rfl

@[simp] theorem State.setIngestCounters_clock (c : IngestCounters) : (s.setIngestCounters c).clock = s.clock :=
  rfl
@[simp] theorem State.setIngestCounters_line (c : IngestCounters) : (s.setIngestCounters c).line = s.line :=
  rfl
@[simp] theorem State.setIngestCounters_marks (c : IngestCounters) : (s.setIngestCounters c).marks = s.marks :=
  rfl
@[simp] theorem State.setIngestCounters_ingest (c : IngestCounters) : (s.setIngestCounters c).ingest = { s.ingest with counters := c } :=
  rfl
@[simp] theorem State.setIngestCounters_memory (c : IngestCounters) : (s.setIngestCounters c).memory = s.memory :=
  rfl
@[simp] theorem State.setIngestCounters_output (c : IngestCounters) : (s.setIngestCounters c).output = s.output :=
  rfl
@[simp] theorem State.setIngestCounters_bus (c : IngestCounters) : (s.setIngestCounters c).bus = s.bus :=
  rfl
@[simp] theorem State.setIngestCounters_peers (c : IngestCounters) : (s.setIngestCounters c).peers = s.peers :=
  rfl
@[simp] theorem State.setIngestCounters_panel (c : IngestCounters) : (s.setIngestCounters c).panel = s.panel :=
  rfl
@[simp] theorem State.setIngestCounters_startup (c : IngestCounters) : (s.setIngestCounters c).startup = s.startup :=
  rfl
@[simp] theorem State.setIngestCounters_pending (c : IngestCounters) : (s.setIngestCounters c).pending = s.pending :=
  rfl
@[simp] theorem State.setIngestCounters_cfg (c : IngestCounters) : (s.setIngestCounters c).cfg = s.cfg := rfl
@[simp] theorem State.setIngestCounters_eff (c : IngestCounters) : (s.setIngestCounters c).eff = s.eff := rfl
@[simp] theorem State.setIngestCounters_emitOrZero (c : IngestCounters) : (s.setIngestCounters c).emitOrZero = s.emitOrZero := rfl
@[simp] theorem State.setIngestCounters_mayTransmit (c : IngestCounters) : (s.setIngestCounters c).mayTransmit = s.mayTransmit := rfl
@[simp] theorem State.setIngestCounters_laneByte (c : IngestCounters) : (s.setIngestCounters c).laneByte = s.laneByte := rfl

@[simp] theorem State.setActivity_clock (a : BusActivity) : (s.setActivity a).clock = s.clock := rfl
@[simp] theorem State.setActivity_line (a : BusActivity) : (s.setActivity a).line = s.line := rfl
@[simp] theorem State.setActivity_marks (a : BusActivity) : (s.setActivity a).marks = s.marks := rfl
@[simp] theorem State.setActivity_ingest (a : BusActivity) : (s.setActivity a).ingest = s.ingest :=
  rfl
@[simp] theorem State.setActivity_memory (a : BusActivity) : (s.setActivity a).memory = s.memory :=
  rfl
@[simp] theorem State.setActivity_output (a : BusActivity) : (s.setActivity a).output = s.output :=
  rfl
@[simp] theorem State.setActivity_bus (a : BusActivity) : (s.setActivity a).bus = { s.bus with activity := a } :=
  rfl
@[simp] theorem State.setActivity_peers (a : BusActivity) : (s.setActivity a).peers = s.peers := rfl
@[simp] theorem State.setActivity_panel (a : BusActivity) : (s.setActivity a).panel = s.panel := rfl
@[simp] theorem State.setActivity_startup (a : BusActivity) : (s.setActivity a).startup = s.startup :=
  rfl
@[simp] theorem State.setActivity_pending (a : BusActivity) : (s.setActivity a).pending = s.pending :=
  rfl
@[simp] theorem State.setActivity_cfg (a : BusActivity) : (s.setActivity a).cfg = s.cfg := rfl
@[simp] theorem State.setActivity_eff (a : BusActivity) : (s.setActivity a).eff = s.eff := rfl
@[simp] theorem State.setActivity_emitOrZero (a : BusActivity) : (s.setActivity a).emitOrZero = s.emitOrZero := rfl
@[simp] theorem State.setActivity_mayTransmit (a : BusActivity) : (s.setActivity a).mayTransmit = s.mayTransmit := rfl
@[simp] theorem State.setActivity_laneByte (a : BusActivity) : (s.setActivity a).laneByte = s.laneByte := rfl

@[simp] theorem State.setService_clock (x : Service) : (s.setService x).clock = s.clock := rfl
@[simp] theorem State.setService_line (x : Service) : (s.setService x).line = { s.line with service := x } :=
  rfl
@[simp] theorem State.setService_marks (x : Service) : (s.setService x).marks = s.marks := rfl
@[simp] theorem State.setService_ingest (x : Service) : (s.setService x).ingest = s.ingest := rfl
@[simp] theorem State.setService_memory (x : Service) : (s.setService x).memory = s.memory := rfl
@[simp] theorem State.setService_output (x : Service) : (s.setService x).output = s.output := rfl
@[simp] theorem State.setService_bus (x : Service) : (s.setService x).bus = s.bus := rfl
@[simp] theorem State.setService_peers (x : Service) : (s.setService x).peers = s.peers := rfl
@[simp] theorem State.setService_panel (x : Service) : (s.setService x).panel = s.panel := rfl
@[simp] theorem State.setService_startup (x : Service) : (s.setService x).startup = s.startup := rfl
@[simp] theorem State.setService_pending (x : Service) : (s.setService x).pending = s.pending := rfl
@[simp] theorem State.setService_cfg (x : Service) : (s.setService x).cfg = s.cfg := rfl
@[simp] theorem State.setService_eff (x : Service) : (s.setService x).eff = s.eff := rfl
@[simp] theorem State.setService_laneByte (x : Service) : (s.setService x).laneByte = s.laneByte := rfl

/-! #### setTallies -/

@[simp] theorem State.setTallies_clock : s.setTallies.clock = s.clock := rfl
@[simp] theorem State.setTallies_line : s.setTallies.line = s.line := rfl
@[simp] theorem State.setTallies_marks : s.setTallies.marks = s.marks := rfl
@[simp] theorem State.setTallies_ingest : s.setTallies.ingest = s.ingest := rfl
@[simp] theorem State.setTallies_memory : s.setTallies.memory = s.memory := rfl
@[simp] theorem State.setTallies_output : s.setTallies.output = s.output := rfl
@[simp] theorem State.setTallies_bus : s.setTallies.bus = s.bus := rfl
@[simp] theorem State.setTallies_peers : s.setTallies.peers = s.peers := rfl
@[simp] theorem State.setTallies_startup : s.setTallies.startup = s.startup := rfl
@[simp] theorem State.setTallies_pending : s.setTallies.pending = s.pending := rfl
@[simp] theorem State.setTallies_cfg : s.setTallies.cfg = s.cfg := rfl
@[simp] theorem State.setTallies_eff : s.setTallies.eff = s.eff := rfl
@[simp] theorem State.setTallies_emitOrZero : s.setTallies.emitOrZero = s.emitOrZero := rfl
@[simp] theorem State.setTallies_mayTransmit : s.setTallies.mayTransmit = s.mayTransmit := rfl
@[simp] theorem State.setTallies_laneByte : s.setTallies.laneByte = s.laneByte := rfl

/-! #### countCue -/

@[simp] theorem State.countCue_clock : s.countCue.clock = s.clock := rfl
@[simp] theorem State.countCue_line : s.countCue.line = s.line := rfl
@[simp] theorem State.countCue_ingest : s.countCue.ingest = s.ingest := rfl
@[simp] theorem State.countCue_memory : s.countCue.memory = s.memory := rfl
@[simp] theorem State.countCue_output : s.countCue.output = s.output := rfl
@[simp] theorem State.countCue_bus : s.countCue.bus = s.bus := rfl
@[simp] theorem State.countCue_peers : s.countCue.peers = s.peers := rfl
@[simp] theorem State.countCue_panel : s.countCue.panel = s.panel := rfl
@[simp] theorem State.countCue_startup : s.countCue.startup = s.startup := rfl
@[simp] theorem State.countCue_pending : s.countCue.pending = s.pending := rfl
@[simp] theorem State.countCue_cfg : s.countCue.cfg = s.cfg := rfl
@[simp] theorem State.countCue_eff : s.countCue.eff = s.eff := rfl
@[simp] theorem State.countCue_emitOrZero : s.countCue.emitOrZero = s.emitOrZero := rfl
@[simp] theorem State.countCue_mayTransmit : s.countCue.mayTransmit = s.mayTransmit := rfl
@[simp] theorem State.countCue_laneByte : s.countCue.laneByte = s.laneByte := rfl

/-! #### clearMarks -/

@[simp] theorem State.clearMarks_clock : s.clearMarks.clock = s.clock := rfl
@[simp] theorem State.clearMarks_line : s.clearMarks.line = s.line := rfl
@[simp] theorem State.clearMarks_ingest : s.clearMarks.ingest = s.ingest := rfl
@[simp] theorem State.clearMarks_memory : s.clearMarks.memory = s.memory := rfl
@[simp] theorem State.clearMarks_output : s.clearMarks.output = s.output := rfl
@[simp] theorem State.clearMarks_bus : s.clearMarks.bus = s.bus := rfl
@[simp] theorem State.clearMarks_peers : s.clearMarks.peers = s.peers := rfl
@[simp] theorem State.clearMarks_panel : s.clearMarks.panel = s.panel := rfl
@[simp] theorem State.clearMarks_startup : s.clearMarks.startup = s.startup := rfl
@[simp] theorem State.clearMarks_pending : s.clearMarks.pending = s.pending := rfl
@[simp] theorem State.clearMarks_cfg : s.clearMarks.cfg = s.cfg := rfl
@[simp] theorem State.clearMarks_eff : s.clearMarks.eff = s.eff := rfl
@[simp] theorem State.clearMarks_emitOrZero : s.clearMarks.emitOrZero = s.emitOrZero := rfl
@[simp] theorem State.clearMarks_mayTransmit : s.clearMarks.mayTransmit = s.mayTransmit := rfl
@[simp] theorem State.clearMarks_laneByte : s.clearMarks.laneByte = s.laneByte := rfl

/-! #### sessionIgnored -/

@[simp] theorem State.sessionIgnored_clock : s.sessionIgnored.clock = s.clock := rfl
@[simp] theorem State.sessionIgnored_line : s.sessionIgnored.line = s.line := rfl
@[simp] theorem State.sessionIgnored_marks : s.sessionIgnored.marks = s.marks := rfl
@[simp] theorem State.sessionIgnored_ingest : s.sessionIgnored.ingest = s.ingest := rfl
@[simp] theorem State.sessionIgnored_memory : s.sessionIgnored.memory = s.memory := rfl
@[simp] theorem State.sessionIgnored_output : s.sessionIgnored.output = s.output := rfl
@[simp] theorem State.sessionIgnored_peers : s.sessionIgnored.peers = s.peers := rfl
@[simp] theorem State.sessionIgnored_panel : s.sessionIgnored.panel = s.panel := rfl
@[simp] theorem State.sessionIgnored_startup : s.sessionIgnored.startup = s.startup := rfl
@[simp] theorem State.sessionIgnored_pending : s.sessionIgnored.pending = s.pending := rfl
@[simp] theorem State.sessionIgnored_cfg : s.sessionIgnored.cfg = s.cfg := rfl
@[simp] theorem State.sessionIgnored_eff : s.sessionIgnored.eff = s.eff := rfl
@[simp] theorem State.sessionIgnored_emitOrZero : s.sessionIgnored.emitOrZero = s.emitOrZero := rfl
@[simp] theorem State.sessionIgnored_mayTransmit : s.sessionIgnored.mayTransmit = s.mayTransmit := rfl
@[simp] theorem State.sessionIgnored_laneByte : s.sessionIgnored.laneByte = s.laneByte := rfl

/-! #### staleBeacon -/

@[simp] theorem State.staleBeacon_clock : s.staleBeacon.clock = s.clock := rfl
@[simp] theorem State.staleBeacon_line : s.staleBeacon.line = s.line := rfl
@[simp] theorem State.staleBeacon_marks : s.staleBeacon.marks = s.marks := rfl
@[simp] theorem State.staleBeacon_ingest : s.staleBeacon.ingest = s.ingest := rfl
@[simp] theorem State.staleBeacon_memory : s.staleBeacon.memory = s.memory := rfl
@[simp] theorem State.staleBeacon_output : s.staleBeacon.output = s.output := rfl
@[simp] theorem State.staleBeacon_bus : s.staleBeacon.bus = s.bus := rfl
@[simp] theorem State.staleBeacon_panel : s.staleBeacon.panel = s.panel := rfl
@[simp] theorem State.staleBeacon_startup : s.staleBeacon.startup = s.startup := rfl
@[simp] theorem State.staleBeacon_pending : s.staleBeacon.pending = s.pending := rfl
@[simp] theorem State.staleBeacon_cfg : s.staleBeacon.cfg = s.cfg := rfl
@[simp] theorem State.staleBeacon_eff : s.staleBeacon.eff = s.eff := rfl
@[simp] theorem State.staleBeacon_emitOrZero : s.staleBeacon.emitOrZero = s.emitOrZero := rfl
@[simp] theorem State.staleBeacon_mayTransmit : s.staleBeacon.mayTransmit = s.mayTransmit := rfl
@[simp] theorem State.staleBeacon_laneByte : s.staleBeacon.laneByte = s.laneByte := rfl

/-! #### countAttempt -/

@[simp] theorem State.countAttempt_clock : s.countAttempt.clock = s.clock := rfl
@[simp] theorem State.countAttempt_line : s.countAttempt.line = s.line := rfl
@[simp] theorem State.countAttempt_marks : s.countAttempt.marks = s.marks := rfl
@[simp] theorem State.countAttempt_ingest : s.countAttempt.ingest = s.ingest := rfl
@[simp] theorem State.countAttempt_memory : s.countAttempt.memory = s.memory := rfl
@[simp] theorem State.countAttempt_output : s.countAttempt.output = s.output := rfl
@[simp] theorem State.countAttempt_peers : s.countAttempt.peers = s.peers := rfl
@[simp] theorem State.countAttempt_panel : s.countAttempt.panel = s.panel := rfl
@[simp] theorem State.countAttempt_startup : s.countAttempt.startup = s.startup := rfl
@[simp] theorem State.countAttempt_pending : s.countAttempt.pending = s.pending := rfl
@[simp] theorem State.countAttempt_cfg : s.countAttempt.cfg = s.cfg := rfl
@[simp] theorem State.countAttempt_eff : s.countAttempt.eff = s.eff := rfl
@[simp] theorem State.countAttempt_emitOrZero : s.countAttempt.emitOrZero = s.emitOrZero := rfl
@[simp] theorem State.countAttempt_mayTransmit : s.countAttempt.mayTransmit = s.mayTransmit := rfl
@[simp] theorem State.countAttempt_laneByte : s.countAttempt.laneByte = s.laneByte := rfl

/-! #### setCoverAir and leaveJoin -/

@[simp] theorem State.setCoverAir_clock (b : Bool) : (State.setCoverAir b s).clock = s.clock := rfl
@[simp] theorem State.setCoverAir_line (b : Bool) : (State.setCoverAir b s).line = s.line := rfl
@[simp] theorem State.setCoverAir_marks (b : Bool) : (State.setCoverAir b s).marks = s.marks := rfl
@[simp] theorem State.setCoverAir_ingest (b : Bool) : (State.setCoverAir b s).ingest = s.ingest := rfl
@[simp] theorem State.setCoverAir_memory (b : Bool) : (State.setCoverAir b s).memory = s.memory := rfl
@[simp] theorem State.setCoverAir_output (b : Bool) : (State.setCoverAir b s).output = s.output := rfl
@[simp] theorem State.setCoverAir_bus (b : Bool) : (State.setCoverAir b s).bus = s.bus := rfl
@[simp] theorem State.setCoverAir_peers (b : Bool) : (State.setCoverAir b s).peers = s.peers := rfl
@[simp] theorem State.setCoverAir_startup (b : Bool) : (State.setCoverAir b s).startup = s.startup := rfl
@[simp] theorem State.setCoverAir_pending (b : Bool) : (State.setCoverAir b s).pending = s.pending := rfl
@[simp] theorem State.leaveJoin_clock : s.leaveJoin.clock = s.clock := rfl
@[simp] theorem State.leaveJoin_marks : s.leaveJoin.marks = s.marks := rfl
@[simp] theorem State.leaveJoin_ingest : s.leaveJoin.ingest = s.ingest := rfl
@[simp] theorem State.leaveJoin_memory : s.leaveJoin.memory = s.memory := rfl
@[simp] theorem State.leaveJoin_output : s.leaveJoin.output = s.output := rfl
@[simp] theorem State.leaveJoin_bus : s.leaveJoin.bus = s.bus := rfl
@[simp] theorem State.leaveJoin_panel : s.leaveJoin.panel = s.panel := rfl
@[simp] theorem State.leaveJoin_startup : s.leaveJoin.startup = s.startup := rfl
@[simp] theorem State.leaveJoin_pending : s.leaveJoin.pending = s.pending := rfl

end Sys2Proof.Machine
end

