-- ==== Sys2Proof/Laws/Frames.lean ====
section
/-! SUPPORT. What each shared operation leaves alone: one lemma for each operation, a conjunct for each
block of State that it does not touch. -/

namespace Sys2Proof.Machine

variable (s : State)

@[simp] theorem State.offerRaw_frame (msg : CueMsg) (target : StationId) :
    (s.offerRaw msg target).1.clock = s.clock ∧
    (s.offerRaw msg target).1.line = s.line ∧ (s.offerRaw msg target).1.marks = s.marks ∧
    (s.offerRaw msg target).1.ingest = s.ingest ∧ (s.offerRaw msg target).1.memory = s.memory ∧
    (s.offerRaw msg target).1.output = s.output ∧ (s.offerRaw msg target).1.peers = s.peers ∧
    (s.offerRaw msg target).1.panel = s.panel ∧ (s.offerRaw msg target).1.startup = s.startup ∧
    (s.offerRaw msg target).1.pending = s.pending :=
  ⟨rfl, rfl, rfl, rfl, rfl, rfl, rfl, rfl, rfl, rfl⟩

@[simp] theorem State.notice_frame (code : Byte) (tick : Option FrameNo) (frame : FrameNo) (detail : BitVec 16) :
    (s.notice code tick frame detail).clock = s.clock ∧
    (s.notice code tick frame detail).line = s.line ∧
    (s.notice code tick frame detail).marks = s.marks ∧
    (s.notice code tick frame detail).ingest = s.ingest ∧
    (s.notice code tick frame detail).memory = s.memory ∧
    (s.notice code tick frame detail).output = s.output ∧
    (s.notice code tick frame detail).peers = s.peers ∧
    (s.notice code tick frame detail).panel = s.panel ∧
    (s.notice code tick frame detail).startup = s.startup ∧
    (s.notice code tick frame detail).pending = s.pending :=
  ⟨rfl, rfl, rfl, rfl, rfl, rfl, rfl, rfl, rfl, rfl⟩

@[simp] theorem serveKeys_frame : ∀ (l : List MarkKey) (s : State),
    (serveKeys l s).clock = s.clock ∧ (serveKeys l s).line = s.line ∧
    (serveKeys l s).ingest = s.ingest ∧ (serveKeys l s).memory = s.memory ∧
    (serveKeys l s).output = s.output ∧ (serveKeys l s).peers = s.peers ∧
    (serveKeys l s).panel = s.panel ∧ (serveKeys l s).startup = s.startup ∧
    (serveKeys l s).pending = s.pending
  | [], _ => by simp [serveKeys]
  | k :: rest, s => by
    generalize h : serveKeys (k :: rest) s = t
    unfold serveKeys at h
    repeat' split at h
    · subst h; exact serveKeys_frame rest s
    · subst h; simpa using serveKeys_frame rest (s.offerRaw _ 0).1
    · subst h; simp

@[simp] theorem State.serve_frame : s.serve.clock = s.clock ∧ s.serve.line = s.line ∧
    s.serve.ingest = s.ingest ∧ s.serve.memory = s.memory ∧ s.serve.output = s.output ∧
    s.serve.peers = s.peers ∧ s.serve.panel = s.panel ∧ s.serve.startup = s.startup ∧
    s.serve.pending = s.pending :=
  serveKeys_frame _ s

@[simp] theorem State.dropOpenKey_frame (key : MarkKey) : (s.dropOpenKey key).clock = s.clock ∧
    (s.dropOpenKey key).line = s.line ∧ (s.dropOpenKey key).marks = s.marks ∧
    (s.dropOpenKey key).ingest = s.ingest ∧ (s.dropOpenKey key).memory = s.memory ∧
    (s.dropOpenKey key).output = s.output ∧ (s.dropOpenKey key).bus = s.bus ∧
    (s.dropOpenKey key).peers = s.peers ∧ (s.dropOpenKey key).startup = s.startup ∧
    (s.dropOpenKey key).pending = s.pending :=
  ⟨rfl, rfl, rfl, rfl, rfl, rfl, rfl, rfl, rfl, rfl⟩

@[simp] theorem State.withdrawClose_frame (origin : StationId) (seq : Byte) :
    (s.withdrawClose origin seq).clock = s.clock ∧
    (s.withdrawClose origin seq).line = s.line ∧ (s.withdrawClose origin seq).marks = s.marks ∧
    (s.withdrawClose origin seq).ingest = s.ingest ∧
    (s.withdrawClose origin seq).memory = s.memory ∧
    (s.withdrawClose origin seq).output = s.output ∧ (s.withdrawClose origin seq).peers = s.peers ∧
    (s.withdrawClose origin seq).panel = s.panel ∧
    (s.withdrawClose origin seq).startup = s.startup ∧
    (s.withdrawClose origin seq).pending = s.pending :=
  ⟨rfl, rfl, rfl, rfl, rfl, rfl, rfl, rfl, rfl, rfl⟩

@[simp] theorem State.loseOwnOpen_frame (m : MarkOpenMsg) : (s.loseOwnOpen m).clock = s.clock ∧
    (s.loseOwnOpen m).line = s.line ∧ (s.loseOwnOpen m).marks = s.marks ∧
    (s.loseOwnOpen m).ingest = s.ingest ∧ (s.loseOwnOpen m).memory = s.memory ∧
    (s.loseOwnOpen m).output = s.output ∧ (s.loseOwnOpen m).peers = s.peers ∧
    (s.loseOwnOpen m).startup = s.startup ∧ (s.loseOwnOpen m).pending = s.pending :=
  ⟨rfl, rfl, rfl, rfl, rfl, rfl, rfl, rfl, rfl⟩

@[simp] theorem State.pressRefused_frame (line reason : Byte) (frame : FrameNo) :
    (s.pressRefused line reason frame).clock = s.clock ∧
    (s.pressRefused line reason frame).line = s.line ∧
    (s.pressRefused line reason frame).marks = s.marks ∧
    (s.pressRefused line reason frame).ingest = s.ingest ∧
    (s.pressRefused line reason frame).memory = s.memory ∧
    (s.pressRefused line reason frame).output = s.output ∧
    (s.pressRefused line reason frame).peers = s.peers ∧
    (s.pressRefused line reason frame).panel = s.panel ∧
    (s.pressRefused line reason frame).startup = s.startup ∧
    (s.pressRefused line reason frame).pending = s.pending :=
  ⟨rfl, rfl, rfl, rfl, rfl, rfl, rfl, rfl, rfl, rfl⟩

@[simp] theorem State.ownerOfDiscard_frame (msg : CueMsg) : (s.ownerOfDiscard msg).clock = s.clock ∧
    (s.ownerOfDiscard msg).line = s.line ∧ (s.ownerOfDiscard msg).marks = s.marks ∧
    (s.ownerOfDiscard msg).ingest = s.ingest ∧ (s.ownerOfDiscard msg).memory = s.memory ∧
    (s.ownerOfDiscard msg).output = s.output ∧ (s.ownerOfDiscard msg).peers = s.peers ∧
    (s.ownerOfDiscard msg).startup = s.startup ∧ (s.ownerOfDiscard msg).pending = s.pending := by
  generalize hw : (s.ownerOfDiscard msg) = t
  simp only [State.ownerOfDiscard] at hw
  (repeat' split at hw) <;> subst hw <;> simp

@[simp] theorem State.offer_frame (msg : CueMsg) (target : StationId) :
    (s.offer msg target).1.clock = s.clock ∧
    (s.offer msg target).1.line = s.line ∧ (s.offer msg target).1.ingest = s.ingest ∧
    (s.offer msg target).1.memory = s.memory ∧ (s.offer msg target).1.output = s.output ∧
    (s.offer msg target).1.peers = s.peers ∧ (s.offer msg target).1.startup = s.startup ∧
    (s.offer msg target).1.pending = s.pending := by
  have f := s.offerRaw_frame msg target
  rcases h : s.offerRaw msg target with ⟨t, ok, d⟩
  rw [h] at f
  cases d <;> simp [State.offer, h] <;> simp at f <;> simp [f]

@[simp] theorem State.tooLate_frame (key : MarkKey) (start : FrameNo) :
    (s.tooLate key start).clock = s.clock ∧
    (s.tooLate key start).line = s.line ∧ (s.tooLate key start).ingest = s.ingest ∧
    (s.tooLate key start).memory = s.memory ∧ (s.tooLate key start).output = s.output ∧
    (s.tooLate key start).peers = s.peers ∧ (s.tooLate key start).panel = s.panel ∧
    (s.tooLate key start).startup = s.startup ∧ (s.tooLate key start).pending = s.pending :=
  ⟨rfl, rfl, rfl, rfl, rfl, rfl, rfl, rfl, rfl⟩

@[simp] theorem State.gapCheck_frame (o : MarkOpenMsg) : (s.gapCheck o).clock = s.clock ∧
    (s.gapCheck o).line = s.line ∧ (s.gapCheck o).ingest = s.ingest ∧
    (s.gapCheck o).memory = s.memory ∧ (s.gapCheck o).output = s.output ∧
    (s.gapCheck o).panel = s.panel ∧ (s.gapCheck o).startup = s.startup ∧
    (s.gapCheck o).pending = s.pending := by
  generalize hw : (s.gapCheck o) = t
  simp only [State.gapCheck] at hw
  (repeat' split at hw) <;> subst hw <;> simp

@[simp] theorem State.admitMark_frame (m : Mark) (received : FrameNo) :
    (s.admitMark m received).clock = s.clock ∧
    (s.admitMark m received).line = s.line ∧ (s.admitMark m received).ingest = s.ingest ∧
    (s.admitMark m received).memory = s.memory ∧ (s.admitMark m received).output = s.output ∧
    (s.admitMark m received).peers = s.peers ∧ (s.admitMark m received).panel = s.panel ∧
    (s.admitMark m received).startup = s.startup ∧ (s.admitMark m received).pending = s.pending := by
  generalize hw : (s.admitMark m received) = t
  simp only [State.admitMark] at hw
  (repeat' split at hw) <;> subst hw <;> simp

@[simp] theorem State.applyOpen_frame (o : MarkOpenMsg) (live : Bool) :
    (s.applyOpen o live).clock = s.clock ∧
    (s.applyOpen o live).line = s.line ∧ (s.applyOpen o live).ingest = s.ingest ∧
    (s.applyOpen o live).memory = s.memory ∧ (s.applyOpen o live).output = s.output ∧
    (s.applyOpen o live).peers = s.peers ∧ (s.applyOpen o live).panel = s.panel ∧
    (s.applyOpen o live).startup = s.startup ∧ (s.applyOpen o live).pending = s.pending := by
  generalize hw : (s.applyOpen o live) = t
  simp only [State.applyOpen] at hw
  (repeat' split at hw) <;> subst hw <;> simp

@[simp] theorem State.receiveOpen_frame (o : MarkOpenMsg) : (s.receiveOpen o).clock = s.clock ∧
    (s.receiveOpen o).line = s.line ∧ (s.receiveOpen o).ingest = s.ingest ∧
    (s.receiveOpen o).memory = s.memory ∧ (s.receiveOpen o).output = s.output ∧
    (s.receiveOpen o).panel = s.panel ∧ (s.receiveOpen o).startup = s.startup ∧
    (s.receiveOpen o).pending = s.pending := by
  generalize hw : (s.receiveOpen o) = t
  simp only [State.receiveOpen] at hw
  (repeat' split at hw) <;> subst hw <;> simp

@[simp] theorem State.closeIgnored_frame (key : MarkKey) (fin : FrameNo) :
    (s.closeIgnored key fin).clock = s.clock ∧
    (s.closeIgnored key fin).line = s.line ∧ (s.closeIgnored key fin).ingest = s.ingest ∧
    (s.closeIgnored key fin).memory = s.memory ∧ (s.closeIgnored key fin).output = s.output ∧
    (s.closeIgnored key fin).peers = s.peers ∧ (s.closeIgnored key fin).panel = s.panel ∧
    (s.closeIgnored key fin).startup = s.startup ∧ (s.closeIgnored key fin).pending = s.pending :=
  ⟨rfl, rfl, rfl, rfl, rfl, rfl, rfl, rfl, rfl⟩

@[simp] theorem State.receiveClose_frame (origin : StationId) (seq : Byte) (fin : FrameNo) :
    (s.receiveClose origin seq fin).clock = s.clock ∧
    (s.receiveClose origin seq fin).line = s.line ∧
    (s.receiveClose origin seq fin).ingest = s.ingest ∧
    (s.receiveClose origin seq fin).memory = s.memory ∧
    (s.receiveClose origin seq fin).output = s.output ∧
    (s.receiveClose origin seq fin).peers = s.peers ∧
    (s.receiveClose origin seq fin).panel = s.panel ∧
    (s.receiveClose origin seq fin).startup = s.startup ∧
    (s.receiveClose origin seq fin).pending = s.pending := by
  generalize hw : (s.receiveClose origin seq fin) = t
  simp only [State.receiveClose] at hw
  (repeat' split at hw) <;> subst hw <;> simp

@[simp] theorem State.retractLate_frame (key : MarkKey) : (s.retractLate key).clock = s.clock ∧
    (s.retractLate key).line = s.line ∧ (s.retractLate key).ingest = s.ingest ∧
    (s.retractLate key).memory = s.memory ∧ (s.retractLate key).output = s.output ∧
    (s.retractLate key).peers = s.peers ∧ (s.retractLate key).panel = s.panel ∧
    (s.retractLate key).startup = s.startup ∧ (s.retractLate key).pending = s.pending :=
  ⟨rfl, rfl, rfl, rfl, rfl, rfl, rfl, rfl, rfl⟩

@[simp] theorem State.receiveRetract_frame (origin : StationId) (seq : Byte) :
    (s.receiveRetract origin seq).clock = s.clock ∧
    (s.receiveRetract origin seq).line = s.line ∧ (s.receiveRetract origin seq).ingest = s.ingest ∧
    (s.receiveRetract origin seq).memory = s.memory ∧
    (s.receiveRetract origin seq).output = s.output ∧
    (s.receiveRetract origin seq).peers = s.peers ∧ (s.receiveRetract origin seq).panel = s.panel ∧
    (s.receiveRetract origin seq).startup = s.startup ∧
    (s.receiveRetract origin seq).pending = s.pending := by
  generalize hw : (s.receiveRetract origin seq) = t
  simp only [State.receiveRetract] at hw
  (repeat' split at hw) <;> subst hw <;> simp

@[simp] theorem State.enlivenOne_frame (m : Mark) : (s.enlivenOne m).clock = s.clock ∧
    (s.enlivenOne m).line = s.line ∧ (s.enlivenOne m).ingest = s.ingest ∧
    (s.enlivenOne m).memory = s.memory ∧ (s.enlivenOne m).output = s.output ∧
    (s.enlivenOne m).peers = s.peers ∧ (s.enlivenOne m).panel = s.panel ∧
    (s.enlivenOne m).startup = s.startup ∧ (s.enlivenOne m).pending = s.pending := by
  generalize hw : (s.enlivenOne m) = t
  simp only [State.enlivenOne] at hw
  (repeat' split at hw) <;> subst hw <;> simp

@[simp] theorem State.enlivenMarks_frame : s.enlivenMarks.clock = s.clock ∧
    s.enlivenMarks.line = s.line ∧ s.enlivenMarks.ingest = s.ingest ∧
    s.enlivenMarks.memory = s.memory ∧ s.enlivenMarks.output = s.output ∧
    s.enlivenMarks.peers = s.peers ∧ s.enlivenMarks.panel = s.panel ∧
    s.enlivenMarks.startup = s.startup ∧ s.enlivenMarks.pending = s.pending := by
  suffices h : ∀ (l : List Mark) (t : State),       (l.foldl State.enlivenOne t).clock = t.clock ∧ (l.foldl State.enlivenOne t).line = t.line ∧
      (l.foldl State.enlivenOne t).ingest = t.ingest ∧
      (l.foldl State.enlivenOne t).memory = t.memory ∧
      (l.foldl State.enlivenOne t).output = t.output ∧
      (l.foldl State.enlivenOne t).peers = t.peers ∧ (l.foldl State.enlivenOne t).panel = t.panel ∧
      (l.foldl State.enlivenOne t).startup = t.startup ∧
      (l.foldl State.enlivenOne t).pending = t.pending from h _ s
  intro l
  induction l with
  | nil => intro t; simp
  | cons x l ih => intro t; simpa using ih (t.enlivenOne x)

@[simp] theorem State.orphan_frame (x : StationId) : (s.orphan x).clock = s.clock ∧
    (s.orphan x).line = s.line ∧ (s.orphan x).ingest = s.ingest ∧ (s.orphan x).memory = s.memory ∧
    (s.orphan x).output = s.output ∧ (s.orphan x).bus = s.bus ∧ (s.orphan x).peers = s.peers ∧
    (s.orphan x).panel = s.panel ∧ (s.orphan x).startup = s.startup ∧
    (s.orphan x).pending = s.pending :=
  ⟨rfl, rfl, rfl, rfl, rfl, rfl, rfl, rfl, rfl, rfl⟩

@[simp] theorem State.marksHello_frame (x : StationId) : (s.marksHello x).clock = s.clock ∧
    (s.marksHello x).line = s.line ∧ (s.marksHello x).ingest = s.ingest ∧
    (s.marksHello x).memory = s.memory ∧ (s.marksHello x).output = s.output ∧
    (s.marksHello x).peers = s.peers ∧ (s.marksHello x).panel = s.panel ∧
    (s.marksHello x).startup = s.startup ∧ (s.marksHello x).pending = s.pending := by
  generalize hw : (s.marksHello x) = t
  simp only [State.marksHello] at hw
  (repeat' split at hw) <;> subst hw <;> simp

@[simp] theorem State.freeFront_frame (a : Allocation) (rest : List Allocation) :
    (s.freeFront a rest).clock = s.clock ∧
    (s.freeFront a rest).line = s.line ∧ (s.freeFront a rest).marks = s.marks ∧
    (s.freeFront a rest).output = s.output ∧ (s.freeFront a rest).bus = s.bus ∧
    (s.freeFront a rest).peers = s.peers ∧ (s.freeFront a rest).panel = s.panel ∧
    (s.freeFront a rest).startup = s.startup ∧ (s.freeFront a rest).pending = s.pending :=
  ⟨rfl, rfl, rfl, rfl, rfl, rfl, rfl, rfl, rfl⟩

@[simp] theorem freeFrom_frame : ∀ (l : List Allocation) (s : State),
    (freeFrom l s).clock = s.clock ∧ (freeFrom l s).line = s.line ∧ (freeFrom l s).marks = s.marks ∧
    (freeFrom l s).output = s.output ∧ (freeFrom l s).bus = s.bus ∧ (freeFrom l s).peers = s.peers ∧
    (freeFrom l s).panel = s.panel ∧ (freeFrom l s).startup = s.startup ∧
    (freeFrom l s).pending = s.pending
  | [], _ => by simp [freeFrom]
  | a :: rest, s => by
    generalize h : freeFrom (a :: rest) s = t
    unfold freeFrom at h
    split at h
    · subst h; simp
    · subst h; simpa using freeFrom_frame rest (s.freeFront a rest)

@[simp] theorem State.tryFree_frame : s.tryFree.clock = s.clock ∧ s.tryFree.line = s.line ∧
    s.tryFree.marks = s.marks ∧ s.tryFree.output = s.output ∧ s.tryFree.bus = s.bus ∧
    s.tryFree.peers = s.peers ∧ s.tryFree.panel = s.panel ∧ s.tryFree.startup = s.startup ∧
    s.tryFree.pending = s.pending :=
  freeFrom_frame _ s

@[simp] theorem State.memoryFault_frame (frame : FrameNo) (first page : Page) (kind : FaultKind) :
    (s.memoryFault frame first page kind).clock = s.clock ∧
    (s.memoryFault frame first page kind).line = s.line ∧
    (s.memoryFault frame first page kind).marks = s.marks ∧
    (s.memoryFault frame first page kind).output = s.output ∧
    (s.memoryFault frame first page kind).peers = s.peers ∧
    (s.memoryFault frame first page kind).panel = s.panel ∧
    (s.memoryFault frame first page kind).startup = s.startup ∧
    (s.memoryFault frame first page kind).pending = s.pending := by
  generalize hw : (s.memoryFault frame first page kind) = t
  simp only [State.memoryFault] at hw
  subst hw; simp

@[simp] theorem State.listFailedPage_frame (p : Page) : (s.listFailedPage p).clock = s.clock ∧
    (s.listFailedPage p).line = s.line ∧ (s.listFailedPage p).marks = s.marks ∧
    (s.listFailedPage p).ingest = s.ingest ∧ (s.listFailedPage p).output = s.output ∧
    (s.listFailedPage p).bus = s.bus ∧ (s.listFailedPage p).peers = s.peers ∧
    (s.listFailedPage p).panel = s.panel ∧ (s.listFailedPage p).startup = s.startup ∧
    (s.listFailedPage p).pending = s.pending :=
  ⟨rfl, rfl, rfl, rfl, rfl, rfl, rfl, rfl, rfl, rfl⟩

@[simp] theorem State.sendCell_frame (c : OutputCell) : (s.sendCell c).clock = s.clock ∧
    (s.sendCell c).line = s.line ∧ (s.sendCell c).marks = s.marks ∧
    (s.sendCell c).ingest = s.ingest ∧ (s.sendCell c).memory = s.memory ∧
    (s.sendCell c).bus = s.bus ∧ (s.sendCell c).peers = s.peers ∧ (s.sendCell c).panel = s.panel ∧
    (s.sendCell c).startup = s.startup ∧ (s.sendCell c).pending = s.pending :=
  ⟨rfl, rfl, rfl, rfl, rfl, rfl, rfl, rfl, rfl, rfl⟩

@[simp] theorem State.finishStaging_frame (g : Staging) (c : Carried) (late : Bool) :
    (s.finishStaging g c late).clock = s.clock ∧
    (s.finishStaging g c late).line = s.line ∧ (s.finishStaging g c late).marks = s.marks ∧
    (s.finishStaging g c late).ingest = s.ingest ∧ (s.finishStaging g c late).memory = s.memory ∧
    (s.finishStaging g c late).bus = s.bus ∧ (s.finishStaging g c late).peers = s.peers ∧
    (s.finishStaging g c late).panel = s.panel ∧ (s.finishStaging g c late).startup = s.startup ∧
    (s.finishStaging g c late).pending = s.pending :=
  ⟨rfl, rfl, rfl, rfl, rfl, rfl, rfl, rfl, rfl, rfl⟩

@[simp] theorem State.startRead_frame (of : ReadOf) (frame : FrameNo) (first : Page) (count length : Nat) (truncated : Bool) :
    (s.startRead of frame first count length truncated).1.clock = s.clock ∧
    (s.startRead of frame first count length truncated).1.line = s.line ∧
    (s.startRead of frame first count length truncated).1.marks = s.marks ∧
    (s.startRead of frame first count length truncated).1.peers = s.peers ∧
    (s.startRead of frame first count length truncated).1.panel = s.panel ∧
    (s.startRead of frame first count length truncated).1.startup = s.startup ∧
    (s.startRead of frame first count length truncated).1.pending = s.pending := by
  generalize hw : (s.startRead of frame first count length truncated).1 = t
  simp only [State.startRead] at hw
  (repeat' split at hw) <;> subst hw <;> simp

/-- Every read asked for starts from an empty staging buffer, also one that fails its map check (R117). -/
@[simp] theorem State.startRead_buffer (of : ReadOf) (frame : FrameNo) (first : Page) (count length : Nat)
    (truncated : Bool) : (s.startRead of frame first count length truncated).1.output.buffer = [] := by
  unfold State.startRead
  split
  · rfl
  · simp

@[simp] theorem State.substitute_frame (g : Staging) : (s.substitute g).clock = s.clock ∧
    (s.substitute g).line = s.line ∧ (s.substitute g).marks = s.marks ∧
    (s.substitute g).peers = s.peers ∧ (s.substitute g).panel = s.panel ∧
    (s.substitute g).startup = s.startup ∧ (s.substitute g).pending = s.pending := by
  generalize hw : (s.substitute g) = t
  simp only [State.substitute] at hw
  (repeat' split at hw) <;> subst hw
  all_goals first
    | simp; done
    | (rename_i hp; have f := (congrArg Prod.fst hp).symm; dsimp only at f; subst f; simp)

@[simp] theorem State.beginStaging_frame (r : SelectionRecord) :
    (s.beginStaging r).clock = s.clock ∧
    (s.beginStaging r).line = s.line ∧ (s.beginStaging r).marks = s.marks ∧
    (s.beginStaging r).peers = s.peers ∧ (s.beginStaging r).panel = s.panel ∧
    (s.beginStaging r).startup = s.startup ∧ (s.beginStaging r).pending = s.pending := by
  generalize hw : (s.beginStaging r) = t
  simp only [State.beginStaging] at hw
  (repeat' split at hw) <;> subst hw
  all_goals first
    | simp; done
    | (rename_i hp; have f := (congrArg Prod.fst hp).symm; dsimp only at f; subst f; simp)

@[simp] theorem State.abandonRead_frame : s.abandonRead.clock = s.clock ∧
    s.abandonRead.line = s.line ∧ s.abandonRead.marks = s.marks ∧ s.abandonRead.output = s.output ∧
    s.abandonRead.bus = s.bus ∧ s.abandonRead.peers = s.peers ∧ s.abandonRead.panel = s.panel ∧
    s.abandonRead.startup = s.startup ∧ s.abandonRead.pending = s.pending := by
  generalize hw : s.abandonRead = t
  simp only [State.abandonRead] at hw
  (repeat' split at hw) <;> subst hw <;> simp

@[simp] theorem State.endLate_frame : s.endLate.clock = s.clock ∧ s.endLate.line = s.line ∧
    s.endLate.marks = s.marks ∧ s.endLate.bus = s.bus ∧ s.endLate.peers = s.peers ∧
    s.endLate.panel = s.panel ∧ s.endLate.startup = s.startup ∧ s.endLate.pending = s.pending := by
  generalize hw : s.endLate = t
  simp only [State.endLate] at hw
  (repeat' split at hw) <;> subst hw <;> simp

@[simp] theorem State.recordArrives_frame (r : SelectionRecord) :
    (s.recordArrives r).clock = s.clock ∧
    (s.recordArrives r).line = s.line ∧ (s.recordArrives r).marks = s.marks ∧
    (s.recordArrives r).peers = s.peers ∧ (s.recordArrives r).panel = s.panel ∧
    (s.recordArrives r).startup = s.startup ∧ (s.recordArrives r).pending = s.pending := by
  generalize hw : (s.recordArrives r) = t
  simp only [State.recordArrives] at hw
  subst hw; simp

@[simp] theorem State.bypassTick_frame (h : FrameNo) : (s.bypassTick h).clock = s.clock ∧
    (s.bypassTick h).line = s.line ∧ (s.bypassTick h).marks = s.marks ∧
    (s.bypassTick h).ingest = s.ingest ∧ (s.bypassTick h).memory = s.memory ∧
    (s.bypassTick h).bus = s.bus ∧ (s.bypassTick h).peers = s.peers ∧
    (s.bypassTick h).panel = s.panel ∧ (s.bypassTick h).startup = s.startup ∧
    (s.bypassTick h).pending = s.pending :=
  ⟨rfl, rfl, rfl, rfl, rfl, rfl, rfl, rfl, rfl, rfl⟩

@[simp] theorem State.readGood_frame (g : Staging) (r : ReadOp) : (s.readGood g r).clock = s.clock ∧
    (s.readGood g r).marks = s.marks ∧ (s.readGood g r).bus = s.bus ∧
    (s.readGood g r).peers = s.peers ∧ (s.readGood g r).panel = s.panel ∧
    (s.readGood g r).startup = s.startup ∧ (s.readGood g r).pending = s.pending := by
  generalize hw : (s.readGood g r) = t
  simp only [State.readGood] at hw
  (repeat' split at hw) <;> subst hw <;> simp

@[simp] theorem State.readFailed_frame (g : Staging) (r : ReadOp) (p : Page) :
    (s.readFailed g r p).clock = s.clock ∧
    (s.readFailed g r p).line = s.line ∧ (s.readFailed g r p).marks = s.marks ∧
    (s.readFailed g r p).peers = s.peers ∧ (s.readFailed g r p).panel = s.panel ∧
    (s.readFailed g r p).startup = s.startup ∧ (s.readFailed g r p).pending = s.pending := by
  generalize hw : (s.readFailed g r p) = t
  simp only [State.readFailed] at hw
  (repeat' split at hw) <;> subst hw <;> simp

@[simp] theorem State.endRead_frame (g : Staging) (r : ReadOp) (changed : Option Nat) :
    (s.endRead g r changed).clock = s.clock ∧
    (s.endRead g r changed).marks = s.marks ∧ (s.endRead g r changed).peers = s.peers ∧
    (s.endRead g r changed).panel = s.panel ∧ (s.endRead g r changed).startup = s.startup ∧
    (s.endRead g r changed).pending = s.pending := by
  generalize hw : (s.endRead g r changed) = t
  simp only [State.endRead] at hw
  (repeat' split at hw) <;> subst hw <;> simp

@[simp] theorem State.endCurrent_frame : s.endCurrent.clock = s.clock ∧ s.endCurrent.line = s.line ∧
    s.endCurrent.marks = s.marks ∧ s.endCurrent.memory = s.memory ∧ s.endCurrent.output = s.output ∧
    s.endCurrent.bus = s.bus ∧ s.endCurrent.peers = s.peers ∧ s.endCurrent.panel = s.panel ∧
    s.endCurrent.startup = s.startup ∧ s.endCurrent.pending = s.pending := by
  generalize hw : s.endCurrent = t
  simp only [State.endCurrent] at hw
  (repeat' split at hw) <;> subst hw <;> simp

@[simp] theorem State.countTruncated_frame (length : Nat) :
    (s.countTruncated length).clock = s.clock ∧
    (s.countTruncated length).line = s.line ∧ (s.countTruncated length).marks = s.marks ∧
    (s.countTruncated length).memory = s.memory ∧ (s.countTruncated length).output = s.output ∧
    (s.countTruncated length).bus = s.bus ∧ (s.countTruncated length).peers = s.peers ∧
    (s.countTruncated length).panel = s.panel ∧ (s.countTruncated length).startup = s.startup ∧
    (s.countTruncated length).pending = s.pending := by
  generalize hw : (s.countTruncated length) = t
  simp only [State.countTruncated] at hw
  (repeat' split at hw) <;> subst hw <;> simp

@[simp] theorem State.ringFull_frame (x : FrameNo) (cause : Refused) :
    (s.ringFull x cause).clock = s.clock ∧
    (s.ringFull x cause).line = s.line ∧ (s.ringFull x cause).marks = s.marks ∧
    (s.ringFull x cause).memory = s.memory ∧ (s.ringFull x cause).output = s.output ∧
    (s.ringFull x cause).peers = s.peers ∧ (s.ringFull x cause).panel = s.panel ∧
    (s.ringFull x cause).startup = s.startup ∧ (s.ringFull x cause).pending = s.pending := by
  generalize hw : (s.ringFull x cause) = t
  simp only [State.ringFull] at hw
  (repeat' split at hw) <;> subst hw <;> simp

@[simp] theorem State.acceptCell_frame (h : CellHeader) : (s.acceptCell h).clock = s.clock ∧
    (s.acceptCell h).line = s.line ∧ (s.acceptCell h).marks = s.marks ∧
    (s.acceptCell h).output = s.output ∧ (s.acceptCell h).bus = s.bus ∧
    (s.acceptCell h).peers = s.peers ∧ (s.acceptCell h).panel = s.panel ∧
    (s.acceptCell h).startup = s.startup ∧ (s.acceptCell h).pending = s.pending :=
  ⟨rfl, rfl, rfl, rfl, rfl, rfl, rfl, rfl, rfl⟩

@[simp] theorem State.takeHeader_frame (h : CellHeader) : (s.takeHeader h).clock = s.clock ∧
    (s.takeHeader h).line = s.line ∧ (s.takeHeader h).marks = s.marks ∧
    (s.takeHeader h).output = s.output ∧ (s.takeHeader h).peers = s.peers ∧
    (s.takeHeader h).panel = s.panel ∧ (s.takeHeader h).startup = s.startup ∧
    (s.takeHeader h).pending = s.pending := by
  generalize hw : (s.takeHeader h) = t
  simp only [State.takeHeader] at hw
  (repeat' split at hw) <;> subst hw <;> simp

@[simp] theorem State.bypassHeader_frame (h : CellHeader) : (s.bypassHeader h).clock = s.clock ∧
    (s.bypassHeader h).line = s.line ∧ (s.bypassHeader h).marks = s.marks ∧
    (s.bypassHeader h).memory = s.memory ∧ (s.bypassHeader h).bus = s.bus ∧
    (s.bypassHeader h).peers = s.peers ∧ (s.bypassHeader h).panel = s.panel ∧
    (s.bypassHeader h).startup = s.startup ∧ (s.bypassHeader h).pending = s.pending := by
  simp only [State.bypassHeader, State.countTruncated]
  (repeat' split) <;> simp

@[simp] theorem State.takeBytes_frame (bytes : List Byte) : (s.takeBytes bytes).clock = s.clock ∧
    (s.takeBytes bytes).line = s.line ∧ (s.takeBytes bytes).marks = s.marks ∧
    (s.takeBytes bytes).memory = s.memory ∧ (s.takeBytes bytes).output = s.output ∧
    (s.takeBytes bytes).bus = s.bus ∧ (s.takeBytes bytes).peers = s.peers ∧
    (s.takeBytes bytes).panel = s.panel ∧ (s.takeBytes bytes).startup = s.startup ∧
    (s.takeBytes bytes).pending = s.pending := by
  generalize hw : (s.takeBytes bytes) = t
  simp only [State.takeBytes] at hw
  (repeat' split at hw) <;> subst hw <;> simp

@[simp] theorem State.completeWrite_frame (w : PageWrite) (rest : List PageWrite) :
    (s.completeWrite w rest).clock = s.clock ∧
    (s.completeWrite w rest).line = s.line ∧ (s.completeWrite w rest).marks = s.marks ∧
    (s.completeWrite w rest).output = s.output ∧ (s.completeWrite w rest).bus = s.bus ∧
    (s.completeWrite w rest).peers = s.peers ∧ (s.completeWrite w rest).panel = s.panel ∧
    (s.completeWrite w rest).startup = s.startup ∧ (s.completeWrite w rest).pending = s.pending := by
  generalize hw : (s.completeWrite w rest) = t
  simp only [State.completeWrite] at hw
  (repeat' split at hw) <;> subst hw <;> simp

@[simp] theorem State.applySelection_frame (h : FrameNo) (x : Selection) :
    (s.applySelection h x).clock = s.clock ∧
    (s.applySelection h x).marks = s.marks ∧ (s.applySelection h x).ingest = s.ingest ∧
    (s.applySelection h x).memory = s.memory ∧ (s.applySelection h x).output = s.output ∧
    (s.applySelection h x).bus = s.bus ∧ (s.applySelection h x).peers = s.peers ∧
    (s.applySelection h x).panel = s.panel ∧ (s.applySelection h x).startup = s.startup ∧
    (s.applySelection h x).pending = s.pending :=
  ⟨rfl, rfl, rfl, rfl, rfl, rfl, rfl, rfl, rfl, rfl⟩

@[simp] theorem State.delayTransition_frame : s.delayTransition.clock = s.clock ∧
    s.delayTransition.ingest = s.ingest ∧ s.delayTransition.memory = s.memory ∧
    s.delayTransition.output = s.output ∧ s.delayTransition.bus = s.bus ∧
    s.delayTransition.peers = s.peers ∧ s.delayTransition.panel = s.panel ∧
    s.delayTransition.startup = s.startup ∧ s.delayTransition.pending = s.pending := by
  generalize hw : s.delayTransition = t
  simp only [State.delayTransition] at hw
  (repeat' split at hw) <;> subst hw <;> simp

@[simp] theorem State.retireMarks_frame : s.retireMarks.clock = s.clock ∧
    s.retireMarks.line = s.line ∧ s.retireMarks.ingest = s.ingest ∧
    s.retireMarks.memory = s.memory ∧ s.retireMarks.output = s.output ∧ s.retireMarks.bus = s.bus ∧
    s.retireMarks.peers = s.peers ∧ s.retireMarks.panel = s.panel ∧
    s.retireMarks.startup = s.startup ∧ s.retireMarks.pending = s.pending := by
  generalize hw : s.retireMarks = t
  simp only [State.retireMarks] at hw
  (repeat' split at hw) <;> subst hw <;> simp

@[simp] theorem State.recordHistory_frame (h : FrameNo) : (s.recordHistory h).clock = s.clock ∧
    (s.recordHistory h).marks = s.marks ∧ (s.recordHistory h).ingest = s.ingest ∧
    (s.recordHistory h).memory = s.memory ∧ (s.recordHistory h).output = s.output ∧
    (s.recordHistory h).bus = s.bus ∧ (s.recordHistory h).peers = s.peers ∧
    (s.recordHistory h).panel = s.panel ∧ (s.recordHistory h).startup = s.startup ∧
    (s.recordHistory h).pending = s.pending :=
  ⟨rfl, rfl, rfl, rfl, rfl, rfl, rfl, rfl, rfl, rfl⟩

@[simp] theorem State.addSession_frame (x : SessionEntry) : (s.addSession x).clock = s.clock ∧
    (s.addSession x).marks = s.marks ∧ (s.addSession x).ingest = s.ingest ∧
    (s.addSession x).memory = s.memory ∧ (s.addSession x).output = s.output ∧
    (s.addSession x).peers = s.peers ∧ (s.addSession x).panel = s.panel ∧
    (s.addSession x).startup = s.startup ∧ (s.addSession x).pending = s.pending := by
  generalize hw : (s.addSession x) = t
  simp only [State.addSession] at hw
  (repeat' split at hw) <;> subst hw <;> simp

@[simp] theorem State.receiveSession_frame (kind : SessionKind) (a : FrameNo) (origin : StationId) :
    (s.receiveSession kind a origin).clock = s.clock ∧
    (s.receiveSession kind a origin).marks = s.marks ∧
    (s.receiveSession kind a origin).ingest = s.ingest ∧
    (s.receiveSession kind a origin).memory = s.memory ∧
    (s.receiveSession kind a origin).output = s.output ∧
    (s.receiveSession kind a origin).peers = s.peers ∧
    (s.receiveSession kind a origin).panel = s.panel ∧
    (s.receiveSession kind a origin).startup = s.startup ∧
    (s.receiveSession kind a origin).pending = s.pending := by
  generalize hw : (s.receiveSession kind a origin) = t
  simp only [State.receiveSession] at hw
  (repeat' split at hw) <;> subst hw <;> simp

@[simp] theorem State.sessionLate_frame (h : FrameNo) (x : SessionEntry) :
    (s.sessionLate h x).clock = s.clock ∧
    (s.sessionLate h x).line = s.line ∧ (s.sessionLate h x).marks = s.marks ∧
    (s.sessionLate h x).ingest = s.ingest ∧ (s.sessionLate h x).memory = s.memory ∧
    (s.sessionLate h x).output = s.output ∧ (s.sessionLate h x).peers = s.peers ∧
    (s.sessionLate h x).panel = s.panel ∧ (s.sessionLate h x).startup = s.startup ∧
    (s.sessionLate h x).pending = s.pending := by
  generalize hw : (s.sessionLate h x) = t
  simp only [State.sessionLate] at hw
  (repeat' split at hw) <;> subst hw <;> simp

@[simp] theorem State.beginSession_frame : s.beginSession.clock = s.clock ∧
    s.beginSession.ingest = s.ingest ∧ s.beginSession.memory = s.memory ∧
    s.beginSession.output = s.output ∧ s.beginSession.bus = s.bus ∧ s.beginSession.peers = s.peers ∧
    s.beginSession.panel = s.panel ∧ s.beginSession.startup = s.startup ∧
    s.beginSession.pending = s.pending :=
  ⟨rfl, rfl, rfl, rfl, rfl, rfl, rfl, rfl, rfl⟩

@[simp] theorem State.resumeSession_frame : s.resumeSession.clock = s.clock ∧
    s.resumeSession.marks = s.marks ∧ s.resumeSession.ingest = s.ingest ∧
    s.resumeSession.memory = s.memory ∧ s.resumeSession.output = s.output ∧
    s.resumeSession.bus = s.bus ∧ s.resumeSession.peers = s.peers ∧
    s.resumeSession.panel = s.panel ∧ s.resumeSession.startup = s.startup ∧
    s.resumeSession.pending = s.pending :=
  ⟨rfl, rfl, rfl, rfl, rfl, rfl, rfl, rfl, rfl, rfl⟩

@[simp] theorem State.takeSession_frame (h : FrameNo) (x : SessionEntry) :
    (State.takeSession h s x).clock = s.clock ∧
    (State.takeSession h s x).ingest = s.ingest ∧ (State.takeSession h s x).memory = s.memory ∧
    (State.takeSession h s x).output = s.output ∧ (State.takeSession h s x).panel = s.panel ∧
    (State.takeSession h s x).startup = s.startup ∧
    (State.takeSession h s x).pending = s.pending := by
  generalize hw : (State.takeSession h s x) = t
  simp only [State.takeSession] at hw
  (repeat' split at hw) <;> subst hw <;> simp

@[simp] theorem State.takeSessions_frame (h : FrameNo) : (s.takeSessions h).clock = s.clock ∧
    (s.takeSessions h).ingest = s.ingest ∧ (s.takeSessions h).memory = s.memory ∧
    (s.takeSessions h).output = s.output ∧ (s.takeSessions h).panel = s.panel ∧
    (s.takeSessions h).startup = s.startup ∧ (s.takeSessions h).pending = s.pending := by
  suffices h : ∀ (l : List SessionEntry) (t : State),       (l.foldl (State.takeSession h) t).clock = t.clock ∧
      (l.foldl (State.takeSession h) t).ingest = t.ingest ∧
      (l.foldl (State.takeSession h) t).memory = t.memory ∧
      (l.foldl (State.takeSession h) t).output = t.output ∧
      (l.foldl (State.takeSession h) t).panel = t.panel ∧
      (l.foldl (State.takeSession h) t).startup = t.startup ∧
      (l.foldl (State.takeSession h) t).pending = t.pending from by
    simpa [State.takeSessions] using h _ (s.setLine _)
  intro l
  induction l with
  | nil => intro t; simp
  | cons x l ih => intro t; simpa using ih (State.takeSession h t x)

@[simp] theorem State.enterJoin_frame : s.enterJoin.clock = s.clock ∧ s.enterJoin.marks = s.marks ∧
    s.enterJoin.ingest = s.ingest ∧ s.enterJoin.memory = s.memory ∧ s.enterJoin.output = s.output ∧
    s.enterJoin.bus = s.bus ∧ s.enterJoin.peers = s.peers ∧ s.enterJoin.panel = s.panel ∧
    s.enterJoin.startup = s.startup ∧ s.enterJoin.pending = s.pending :=
  ⟨rfl, rfl, rfl, rfl, rfl, rfl, rfl, rfl, rfl, rfl⟩

@[simp] theorem State.countNoReference_frame : s.countNoReference.clock = s.clock ∧
    s.countNoReference.marks = s.marks ∧ s.countNoReference.ingest = s.ingest ∧
    s.countNoReference.memory = s.memory ∧ s.countNoReference.output = s.output ∧
    s.countNoReference.bus = s.bus ∧ s.countNoReference.peers = s.peers ∧
    s.countNoReference.panel = s.panel ∧ s.countNoReference.startup = s.startup ∧
    s.countNoReference.pending = s.pending := by
  generalize hw : s.countNoReference = t
  simp only [State.countNoReference] at hw
  (repeat' split at hw) <;> subst hw <;> simp

@[simp] theorem State.abandonJoin_frame (h : FrameNo) (detail : BitVec 16) :
    (s.abandonJoin h detail).clock = s.clock ∧
    (s.abandonJoin h detail).marks = s.marks ∧ (s.abandonJoin h detail).ingest = s.ingest ∧
    (s.abandonJoin h detail).memory = s.memory ∧ (s.abandonJoin h detail).output = s.output ∧
    (s.abandonJoin h detail).panel = s.panel ∧ (s.abandonJoin h detail).startup = s.startup ∧
    (s.abandonJoin h detail).pending = s.pending :=
  ⟨rfl, rfl, rfl, rfl, rfl, rfl, rfl, rfl⟩

@[simp] theorem State.testJoinLimits_frame (h : FrameNo) : (s.testJoinLimits h).clock = s.clock ∧
    (s.testJoinLimits h).marks = s.marks ∧ (s.testJoinLimits h).ingest = s.ingest ∧
    (s.testJoinLimits h).memory = s.memory ∧ (s.testJoinLimits h).output = s.output ∧
    (s.testJoinLimits h).panel = s.panel ∧ (s.testJoinLimits h).startup = s.startup ∧
    (s.testJoinLimits h).pending = s.pending := by
  generalize hw : (s.testJoinLimits h) = t
  simp only [State.testJoinLimits] at hw
  (repeat' split at hw) <;> subst hw <;> simp

@[simp] theorem State.refreshReference_frame : s.refreshReference.clock = s.clock ∧
    s.refreshReference.line = s.line ∧ s.refreshReference.marks = s.marks ∧
    s.refreshReference.ingest = s.ingest ∧ s.refreshReference.memory = s.memory ∧
    s.refreshReference.output = s.output ∧ s.refreshReference.bus = s.bus ∧
    s.refreshReference.panel = s.panel ∧ s.refreshReference.startup = s.startup ∧
    s.refreshReference.pending = s.pending := by
  generalize hw : s.refreshReference = t
  simp only [State.refreshReference] at hw
  (repeat' split at hw) <;> subst hw <;> simp

@[simp] theorem State.handEstimate_frame (h : FrameNo) : (s.handEstimate h).clock = s.clock ∧
    (s.handEstimate h).line = s.line ∧ (s.handEstimate h).marks = s.marks ∧
    (s.handEstimate h).ingest = s.ingest ∧ (s.handEstimate h).memory = s.memory ∧
    (s.handEstimate h).output = s.output ∧ (s.handEstimate h).bus = s.bus ∧
    (s.handEstimate h).panel = s.panel ∧ (s.handEstimate h).startup = s.startup ∧
    (s.handEstimate h).pending = s.pending := by
  generalize hw : (s.handEstimate h) = t
  simp only [State.handEstimate] at hw
  (repeat' split at hw) <;> subst hw <;> simp

@[simp] theorem State.alignClear_frame (p : Peer) (code : Byte) :
    (s.alignClear p code).clock = s.clock ∧
    (s.alignClear p code).line = s.line ∧ (s.alignClear p code).marks = s.marks ∧
    (s.alignClear p code).ingest = s.ingest ∧ (s.alignClear p code).memory = s.memory ∧
    (s.alignClear p code).output = s.output ∧ (s.alignClear p code).peers = s.peers ∧
    (s.alignClear p code).panel = s.panel ∧ (s.alignClear p code).startup = s.startup ∧
    (s.alignClear p code).pending = s.pending := by
  generalize hw : (s.alignClear p code) = t
  simp only [State.alignClear] at hw
  (repeat' split at hw) <;> subst hw <;> simp

@[simp] theorem State.hear_frame (src : StationId) : (s.hear src).clock = s.clock ∧
    (s.hear src).line = s.line ∧ (s.hear src).marks = s.marks ∧ (s.hear src).ingest = s.ingest ∧
    (s.hear src).memory = s.memory ∧ (s.hear src).output = s.output ∧ (s.hear src).panel = s.panel ∧
    (s.hear src).startup = s.startup ∧ (s.hear src).pending = s.pending := by
  generalize hw : (s.hear src) = t
  simp only [State.hear] at hw
  (repeat' split at hw) <;> subst hw <;> simp

@[simp] theorem State.silence_frame (id : StationId) : (s.silence id).clock = s.clock ∧
    (s.silence id).line = s.line ∧ (s.silence id).marks = s.marks ∧
    (s.silence id).ingest = s.ingest ∧ (s.silence id).memory = s.memory ∧
    (s.silence id).output = s.output ∧ (s.silence id).bus = s.bus ∧ (s.silence id).panel = s.panel ∧
    (s.silence id).startup = s.startup ∧ (s.silence id).pending = s.pending := by
  generalize hw : (s.silence id) = t
  simp only [State.silence] at hw
  subst hw; simp

@[simp] theorem State.freePeer_frame (p : Peer) : (s.freePeer p).clock = s.clock ∧
    (s.freePeer p).line = s.line ∧ (s.freePeer p).marks = s.marks ∧
    (s.freePeer p).ingest = s.ingest ∧ (s.freePeer p).memory = s.memory ∧
    (s.freePeer p).output = s.output ∧ (s.freePeer p).panel = s.panel ∧
    (s.freePeer p).startup = s.startup ∧ (s.freePeer p).pending = s.pending := by
  generalize hw : (s.freePeer p) = t
  simp only [State.freePeer] at hw
  subst hw; simp

@[simp] theorem State.agePeer_frame (h : FrameNo) (p : Peer) :
    (State.agePeer h s p).clock = s.clock ∧
    (State.agePeer h s p).line = s.line ∧ (State.agePeer h s p).marks = s.marks ∧
    (State.agePeer h s p).ingest = s.ingest ∧ (State.agePeer h s p).memory = s.memory ∧
    (State.agePeer h s p).output = s.output ∧ (State.agePeer h s p).panel = s.panel ∧
    (State.agePeer h s p).startup = s.startup ∧ (State.agePeer h s p).pending = s.pending := by
  generalize hw : (State.agePeer h s p) = t
  simp only [State.agePeer] at hw
  (repeat' split at hw) <;> subst hw <;> simp

@[simp] theorem State.ageRoster_frame (h : FrameNo) : (s.ageRoster h).clock = s.clock ∧
    (s.ageRoster h).line = s.line ∧ (s.ageRoster h).marks = s.marks ∧
    (s.ageRoster h).ingest = s.ingest ∧ (s.ageRoster h).memory = s.memory ∧
    (s.ageRoster h).output = s.output ∧ (s.ageRoster h).panel = s.panel ∧
    (s.ageRoster h).startup = s.startup ∧ (s.ageRoster h).pending = s.pending := by
  suffices h : ∀ (l : List Peer) (t : State),       (l.foldl (State.agePeer h) t).clock = t.clock ∧ (l.foldl (State.agePeer h) t).line = t.line ∧
      (l.foldl (State.agePeer h) t).marks = t.marks ∧
      (l.foldl (State.agePeer h) t).ingest = t.ingest ∧
      (l.foldl (State.agePeer h) t).memory = t.memory ∧
      (l.foldl (State.agePeer h) t).output = t.output ∧
      (l.foldl (State.agePeer h) t).panel = t.panel ∧
      (l.foldl (State.agePeer h) t).startup = t.startup ∧
      (l.foldl (State.agePeer h) t).pending = t.pending from by
    unfold State.ageRoster; split
    · exact h _ s
    · simp
  intro l
  induction l with
  | nil => intro t; simp
  | cons x l ih => intro t; simpa using ih (State.agePeer h t x)

@[simp] theorem State.stampRoster_frame (h : FrameNo) : (s.stampRoster h).clock = s.clock ∧
    (s.stampRoster h).line = s.line ∧ (s.stampRoster h).marks = s.marks ∧
    (s.stampRoster h).ingest = s.ingest ∧ (s.stampRoster h).memory = s.memory ∧
    (s.stampRoster h).output = s.output ∧ (s.stampRoster h).bus = s.bus ∧
    (s.stampRoster h).panel = s.panel ∧ (s.stampRoster h).startup = s.startup ∧
    (s.stampRoster h).pending = s.pending :=
  ⟨rfl, rfl, rfl, rfl, rfl, rfl, rfl, rfl, rfl, rfl⟩

@[simp] theorem State.rebaseRoster_frame (h : FrameNo) : (s.rebaseRoster h).clock = s.clock ∧
    (s.rebaseRoster h).line = s.line ∧ (s.rebaseRoster h).marks = s.marks ∧
    (s.rebaseRoster h).ingest = s.ingest ∧ (s.rebaseRoster h).memory = s.memory ∧
    (s.rebaseRoster h).output = s.output ∧ (s.rebaseRoster h).bus = s.bus ∧
    (s.rebaseRoster h).panel = s.panel ∧ (s.rebaseRoster h).startup = s.startup ∧
    (s.rebaseRoster h).pending = s.pending :=
  ⟨rfl, rfl, rfl, rfl, rfl, rfl, rfl, rfl, rfl, rfl⟩

@[simp] theorem State.setDigest_frame (id : StationId) (digest : BitVec 16) :
    (s.setDigest id digest).clock = s.clock ∧
    (s.setDigest id digest).line = s.line ∧ (s.setDigest id digest).marks = s.marks ∧
    (s.setDigest id digest).ingest = s.ingest ∧ (s.setDigest id digest).memory = s.memory ∧
    (s.setDigest id digest).output = s.output ∧ (s.setDigest id digest).panel = s.panel ∧
    (s.setDigest id digest).startup = s.startup ∧ (s.setDigest id digest).pending = s.pending := by
  generalize hw : (s.setDigest id digest) = t
  simp only [State.setDigest] at hw
  (repeat' split at hw) <;> subst hw <;> simp

@[simp] theorem State.peersHello_frame (x : StationId) (m : HelloMsg) :
    (s.peersHello x m).clock = s.clock ∧
    (s.peersHello x m).line = s.line ∧ (s.peersHello x m).marks = s.marks ∧
    (s.peersHello x m).ingest = s.ingest ∧ (s.peersHello x m).memory = s.memory ∧
    (s.peersHello x m).output = s.output ∧ (s.peersHello x m).panel = s.panel ∧
    (s.peersHello x m).startup = s.startup ∧ (s.peersHello x m).pending = s.pending := by
  generalize hw : (s.peersHello x m) = t
  simp only [State.peersHello] at hw
  (repeat' split at hw) <;> subst hw <;> simp

@[simp] theorem State.judgeAlignment_frame (id : StationId) (mask : Byte) (b : LastBeacon) :
    (s.judgeAlignment id mask b).clock = s.clock ∧
    (s.judgeAlignment id mask b).line = s.line ∧ (s.judgeAlignment id mask b).marks = s.marks ∧
    (s.judgeAlignment id mask b).ingest = s.ingest ∧
    (s.judgeAlignment id mask b).memory = s.memory ∧
    (s.judgeAlignment id mask b).output = s.output ∧ (s.judgeAlignment id mask b).panel = s.panel ∧
    (s.judgeAlignment id mask b).startup = s.startup ∧
    (s.judgeAlignment id mask b).pending = s.pending := by
  generalize hw : (s.judgeAlignment id mask b) = t
  simp only [State.judgeAlignment] at hw
  (repeat' split at hw) <;> subst hw <;> simp

@[simp] theorem State.compareBeacon_frame (id : StationId) (b : LastBeacon) (digest : BitVec 16) :
    (s.compareBeacon id b digest).clock = s.clock ∧
    (s.compareBeacon id b digest).line = s.line ∧ (s.compareBeacon id b digest).marks = s.marks ∧
    (s.compareBeacon id b digest).ingest = s.ingest ∧
    (s.compareBeacon id b digest).memory = s.memory ∧
    (s.compareBeacon id b digest).output = s.output ∧
    (s.compareBeacon id b digest).panel = s.panel ∧
    (s.compareBeacon id b digest).startup = s.startup ∧
    (s.compareBeacon id b digest).pending = s.pending := by
  generalize hw : (s.compareBeacon id b digest) = t
  simp only [State.compareBeacon] at hw
  (repeat' split at hw) <;> subst hw <;> simp

@[simp] theorem State.autoJoin_frame (b : LastBeacon) (digest : BitVec 16) :
    (s.autoJoin b digest).clock = s.clock ∧
    (s.autoJoin b digest).ingest = s.ingest ∧ (s.autoJoin b digest).memory = s.memory ∧
    (s.autoJoin b digest).output = s.output ∧ (s.autoJoin b digest).peers = s.peers ∧
    (s.autoJoin b digest).panel = s.panel ∧ (s.autoJoin b digest).startup = s.startup ∧
    (s.autoJoin b digest).pending = s.pending := by
  generalize hw : (s.autoJoin b digest) = t
  simp only [State.autoJoin] at hw
  (repeat' split at hw) <;> subst hw <;> simp

@[simp] theorem State.completeJoin_frame (id : StationId) (b : LastBeacon) (x : HistoryEntry) (carried : Service) :
    (s.completeJoin id b x carried).clock = s.clock ∧
    (s.completeJoin id b x carried).ingest = s.ingest ∧
    (s.completeJoin id b x carried).memory = s.memory ∧
    (s.completeJoin id b x carried).output = s.output ∧
    (s.completeJoin id b x carried).panel = s.panel ∧
    (s.completeJoin id b x carried).startup = s.startup ∧
    (s.completeJoin id b x carried).pending = s.pending :=
  ⟨rfl, rfl, rfl, rfl, rfl, rfl, rfl⟩

@[simp] theorem State.joinBeacon_frame (id : StationId) (b : LastBeacon) :
    (s.joinBeacon id b).clock = s.clock ∧
    (s.joinBeacon id b).ingest = s.ingest ∧ (s.joinBeacon id b).memory = s.memory ∧
    (s.joinBeacon id b).output = s.output ∧ (s.joinBeacon id b).panel = s.panel ∧
    (s.joinBeacon id b).startup = s.startup ∧ (s.joinBeacon id b).pending = s.pending := by
  generalize hw : (s.joinBeacon id b) = t
  simp only [State.joinBeacon] at hw
  (repeat' split at hw) <;> subst hw <;> simp

@[simp] theorem State.rosterBeacon_frame (x : StationId) (m : BeaconMsg) :
    (s.rosterBeacon x m).clock = s.clock ∧
    (s.rosterBeacon x m).line = s.line ∧ (s.rosterBeacon x m).marks = s.marks ∧
    (s.rosterBeacon x m).ingest = s.ingest ∧ (s.rosterBeacon x m).memory = s.memory ∧
    (s.rosterBeacon x m).output = s.output ∧ (s.rosterBeacon x m).panel = s.panel ∧
    (s.rosterBeacon x m).startup = s.startup ∧ (s.rosterBeacon x m).pending = s.pending := by
  generalize hw : (s.rosterBeacon x m) = t
  simp only [State.rosterBeacon] at hw
  subst hw; simp

@[simp] theorem State.receiveBeacon_frame (x : StationId) (m : BeaconMsg) :
    (s.receiveBeacon x m).clock = s.clock ∧
    (s.receiveBeacon x m).ingest = s.ingest ∧ (s.receiveBeacon x m).memory = s.memory ∧
    (s.receiveBeacon x m).output = s.output ∧ (s.receiveBeacon x m).panel = s.panel ∧
    (s.receiveBeacon x m).startup = s.startup ∧ (s.receiveBeacon x m).pending = s.pending := by
  generalize hw : (s.receiveBeacon x m) = t
  simp only [State.receiveBeacon] at hw
  (repeat' split at hw) <;> subst hw <;> simp

@[simp] theorem State.setOpenKey_frame (kind : MarkKind) (key : Option MarkKey) :
    (s.setOpenKey kind key).clock = s.clock ∧
    (s.setOpenKey kind key).line = s.line ∧ (s.setOpenKey kind key).marks = s.marks ∧
    (s.setOpenKey kind key).ingest = s.ingest ∧ (s.setOpenKey kind key).memory = s.memory ∧
    (s.setOpenKey kind key).output = s.output ∧ (s.setOpenKey kind key).bus = s.bus ∧
    (s.setOpenKey kind key).peers = s.peers ∧ (s.setOpenKey kind key).startup = s.startup ∧
    (s.setOpenKey kind key).pending = s.pending := by
  generalize hw : (s.setOpenKey kind key) = t
  simp only [State.setOpenKey] at hw
  (repeat' split at hw) <;> subst hw <;> simp

@[simp] theorem State.offerPress_frame (kind : MarkKind) (start : FrameNo) (fin : Option FrameNo) :
    (s.offerPress kind start fin).clock = s.clock ∧
    (s.offerPress kind start fin).line = s.line ∧ (s.offerPress kind start fin).ingest = s.ingest ∧
    (s.offerPress kind start fin).memory = s.memory ∧
    (s.offerPress kind start fin).output = s.output ∧
    (s.offerPress kind start fin).peers = s.peers ∧
    (s.offerPress kind start fin).startup = s.startup ∧
    (s.offerPress kind start fin).pending = s.pending := by
  generalize hw : (s.offerPress kind start fin) = t
  simp only [State.offerPress] at hw
  (repeat' split at hw) <;> subst hw
  all_goals first
    | simp; done
    | (rename_i hp; have f := (congrArg Prod.fst hp).symm; dsimp only at f; subst f; simp)
    | (rename_i hp _; have f := (congrArg Prod.fst hp).symm; dsimp only at f; subst f; simp)

@[simp] theorem State.pressMark_frame (kind : MarkKind) (h : FrameNo) :
    (s.pressMark kind h).clock = s.clock ∧
    (s.pressMark kind h).line = s.line ∧ (s.pressMark kind h).ingest = s.ingest ∧
    (s.pressMark kind h).memory = s.memory ∧ (s.pressMark kind h).output = s.output ∧
    (s.pressMark kind h).peers = s.peers ∧ (s.pressMark kind h).startup = s.startup ∧
    (s.pressMark kind h).pending = s.pending := by
  generalize hw : (s.pressMark kind h) = t
  simp only [State.pressMark] at hw
  (repeat' split at hw) <;> subst hw <;> simp

@[simp] theorem State.releaseMark_frame (kind : MarkKind) (h : FrameNo) :
    (s.releaseMark kind h).clock = s.clock ∧
    (s.releaseMark kind h).line = s.line ∧ (s.releaseMark kind h).ingest = s.ingest ∧
    (s.releaseMark kind h).memory = s.memory ∧ (s.releaseMark kind h).output = s.output ∧
    (s.releaseMark kind h).peers = s.peers ∧ (s.releaseMark kind h).startup = s.startup ∧
    (s.releaseMark kind h).pending = s.pending := by
  generalize hw : (s.releaseMark kind h) = t
  simp only [State.releaseMark] at hw
  (repeat' split at hw) <;> subst hw
  all_goals first
    | simp; done
    | (rename_i hp; have f := (congrArg Prod.fst hp).symm; dsimp only at f; subst f; simp)

@[simp] theorem State.pressSession_frame (kind : SessionKind) (h : FrameNo) :
    (s.pressSession kind h).clock = s.clock ∧
    (s.pressSession kind h).line = s.line ∧ (s.pressSession kind h).ingest = s.ingest ∧
    (s.pressSession kind h).memory = s.memory ∧ (s.pressSession kind h).output = s.output ∧
    (s.pressSession kind h).peers = s.peers ∧ (s.pressSession kind h).startup = s.startup ∧
    (s.pressSession kind h).pending = s.pending := by
  generalize hw : (s.pressSession kind h) = t
  simp only [State.pressSession] at hw
  (repeat' split at hw) <;> subst hw
  all_goals first
    | simp; done
    | (rename_i hp; have f := (congrArg Prod.fst hp).symm; dsimp only at f; subst f; simp)

@[simp] theorem State.samplePanel_frame (h : FrameNo) (now : PanelLevels) :
    (s.samplePanel h now).clock = s.clock ∧
    (s.samplePanel h now).line = s.line ∧ (s.samplePanel h now).ingest = s.ingest ∧
    (s.samplePanel h now).memory = s.memory ∧ (s.samplePanel h now).output = s.output ∧
    (s.samplePanel h now).peers = s.peers ∧ (s.samplePanel h now).startup = s.startup ∧
    (s.samplePanel h now).pending = s.pending := by
  have e : ∀ (t : State) (found : Bool) (work : State → State)
      (_ : ∀ t, (work t).clock = t.clock ∧ (work t).line = t.line ∧ (work t).ingest = t.ingest ∧
        (work t).memory = t.memory ∧ (work t).output = t.output ∧ (work t).peers = t.peers ∧
        (work t).startup = t.startup ∧ (work t).pending = t.pending),
      (t.onEvent found work).clock = t.clock ∧ (t.onEvent found work).line = t.line ∧
        (t.onEvent found work).ingest = t.ingest ∧ (t.onEvent found work).memory = t.memory ∧
        (t.onEvent found work).output = t.output ∧ (t.onEvent found work).peers = t.peers ∧
        (t.onEvent found work).startup = t.startup ∧ (t.onEvent found work).pending = t.pending := by
    intro t found work hw
    cases found <;> simp [State.onEvent, hw]
  simp only [State.samplePanel]
  split
  · simp
  · simp [e]

@[simp] theorem State.answerQuery_frame (src : StationId) (group : BitVec 4) (part : Bool) :
    (s.answerQuery src group part).clock = s.clock ∧
    (s.answerQuery src group part).line = s.line ∧
    (s.answerQuery src group part).ingest = s.ingest ∧
    (s.answerQuery src group part).memory = s.memory ∧
    (s.answerQuery src group part).output = s.output ∧
    (s.answerQuery src group part).peers = s.peers ∧
    (s.answerQuery src group part).startup = s.startup ∧
    (s.answerQuery src group part).pending = s.pending := by
  generalize hw : (s.answerQuery src group part) = t
  simp only [State.answerQuery] at hw
  subst hw; simp

@[simp] theorem State.beginSequence_frame (straps : StationId) :
    (s.beginSequence straps).clock = s.clock ∧
    (s.beginSequence straps).line = s.line ∧ (s.beginSequence straps).marks = s.marks ∧
    (s.beginSequence straps).ingest = s.ingest ∧ (s.beginSequence straps).memory = s.memory ∧
    (s.beginSequence straps).output = s.output ∧ (s.beginSequence straps).bus = s.bus ∧
    (s.beginSequence straps).peers = s.peers ∧ (s.beginSequence straps).panel = s.panel ∧
    (s.beginSequence straps).pending = s.pending :=
  ⟨rfl, rfl, rfl, rfl, rfl, rfl, rfl, rfl, rfl, rfl⟩

@[simp] theorem State.announce_frame : s.announce.clock = s.clock ∧ s.announce.line = s.line ∧
    s.announce.ingest = s.ingest ∧ s.announce.memory = s.memory ∧ s.announce.output = s.output ∧
    s.announce.peers = s.peers ∧ s.announce.startup = s.startup ∧
    s.announce.pending = s.pending := by
  generalize hw : s.announce = t
  simp only [State.announce] at hw
  (repeat' split at hw) <;> subst hw <;> simp

@[simp] theorem State.completeStartUp_frame : s.completeStartUp.clock = s.clock ∧
    s.completeStartUp.ingest = s.ingest ∧ s.completeStartUp.memory = s.memory ∧
    s.completeStartUp.output = s.output ∧ s.completeStartUp.peers = s.peers ∧
    s.completeStartUp.pending = s.pending := by
  generalize hw : s.completeStartUp = t
  simp only [State.completeStartUp] at hw
  (repeat' split at hw) <;> subst hw <;> simp

@[simp] theorem State.configure_frame (record : List Byte) : (s.configure record).line = s.line ∧
    (s.configure record).marks = s.marks ∧ (s.configure record).ingest = s.ingest ∧
    (s.configure record).memory = s.memory ∧ (s.configure record).output = s.output ∧
    (s.configure record).bus = s.bus ∧ (s.configure record).peers = s.peers ∧
    (s.configure record).panel = s.panel ∧ (s.configure record).pending = s.pending := by
  generalize hw : (s.configure record) = t
  simp only [State.configure] at hw
  (repeat' split at hw) <;> subst hw <;> simp

@[simp] theorem State.settleTest_frame (failing : List Page) :
    (s.settleTest failing).clock = s.clock ∧
    (s.settleTest failing).line = s.line ∧ (s.settleTest failing).marks = s.marks ∧
    (s.settleTest failing).ingest = s.ingest ∧ (s.settleTest failing).output = s.output ∧
    (s.settleTest failing).bus = s.bus ∧ (s.settleTest failing).peers = s.peers ∧
    (s.settleTest failing).panel = s.panel ∧ (s.settleTest failing).pending = s.pending :=
  ⟨rfl, rfl, rfl, rfl, rfl, rfl, rfl, rfl, rfl⟩

@[simp] theorem State.resendHello_frame : s.resendHello.clock = s.clock ∧
    s.resendHello.line = s.line ∧ s.resendHello.ingest = s.ingest ∧
    s.resendHello.memory = s.memory ∧ s.resendHello.output = s.output ∧
    s.resendHello.peers = s.peers ∧ s.resendHello.startup = s.startup ∧
    s.resendHello.pending = s.pending := by
  generalize hw : s.resendHello = t
  simp only [State.resendHello] at hw
  (repeat' split at hw) <;> subst hw
  all_goals first
    | simp; done
    | (rename_i hp; have f := (congrArg Prod.fst hp).symm; dsimp only at f; subst f; simp)

@[simp] theorem State.beaconTick_frame (h : FrameNo) : (s.beaconTick h).clock = s.clock ∧
    (s.beaconTick h).line = s.line ∧ (s.beaconTick h).ingest = s.ingest ∧
    (s.beaconTick h).memory = s.memory ∧ (s.beaconTick h).output = s.output ∧
    (s.beaconTick h).peers = s.peers ∧ (s.beaconTick h).startup = s.startup ∧
    (s.beaconTick h).pending = s.pending := by
  generalize hw : (s.beaconTick h) = t
  simp only [State.beaconTick] at hw
  (repeat' split at hw) <;> subst hw <;> simp

@[simp] theorem State.freeAtTick_frame (old : Option FrameNo) : (s.freeAtTick old).clock = s.clock ∧
    (s.freeAtTick old).line = s.line ∧ (s.freeAtTick old).marks = s.marks ∧
    (s.freeAtTick old).output = s.output ∧ (s.freeAtTick old).bus = s.bus ∧
    (s.freeAtTick old).peers = s.peers ∧ (s.freeAtTick old).panel = s.panel ∧
    (s.freeAtTick old).startup = s.startup ∧ (s.freeAtTick old).pending = s.pending := by
  generalize hw : (s.freeAtTick old) = t
  simp only [State.freeAtTick] at hw
  (repeat' split at hw) <;> subst hw <;> simp

@[simp] theorem State.joinStage_frame (h : FrameNo) : (s.joinStage h).clock = s.clock ∧
    (s.joinStage h).marks = s.marks ∧ (s.joinStage h).ingest = s.ingest ∧
    (s.joinStage h).memory = s.memory ∧ (s.joinStage h).output = s.output ∧
    (s.joinStage h).panel = s.panel ∧ (s.joinStage h).startup = s.startup ∧
    (s.joinStage h).pending = s.pending := by
  generalize hw : (s.joinStage h) = t
  simp only [State.joinStage] at hw
  (repeat' split at hw) <;> subst hw <;> simp

@[simp] theorem State.tickLine_frame (h : FrameNo) : (s.tickLine h).clock = s.clock ∧
    (s.tickLine h).startup = s.startup ∧ (s.tickLine h).pending = s.pending := by
  generalize hw : (s.tickLine h) = t
  simp only [State.tickLine] at hw
  subst hw; simp

@[simp] theorem State.tickState_frame (h : FrameNo) : (s.tickState h).clock = s.clock ∧
    (s.tickState h).startup = s.startup ∧ (s.tickState h).pending = s.pending := by
  generalize hw : (s.tickState h) = t
  simp only [State.tickState] at hw
  (repeat' split at hw) <;> subst hw <;> simp

@[simp] theorem State.tickWork_frame (h : FrameNo) (levels : PanelLevels) :
    (s.tickWork h levels).clock = s.clock ∧
    (s.tickWork h levels).startup = s.startup ∧ (s.tickWork h levels).pending = s.pending := by
  generalize hw : (s.tickWork h levels) = t
  simp only [State.tickWork] at hw
  subst hw; simp

@[simp] theorem State.takeTick_frame (h : FrameNo) : (s.takeTick h).line = s.line ∧
    (s.takeTick h).marks = s.marks ∧ (s.takeTick h).ingest = s.ingest ∧
    (s.takeTick h).memory = s.memory ∧ (s.takeTick h).output = s.output ∧
    (s.takeTick h).bus = s.bus ∧ (s.takeTick h).panel = s.panel ∧
    (s.takeTick h).startup = s.startup ∧ (s.takeTick h).pending = s.pending := by
  generalize hw : (s.takeTick h) = t
  simp only [State.takeTick] at hw
  (repeat' split at hw) <;> subst hw <;> simp

@[simp] theorem State.tick_frame (h : FrameNo) (levels : PanelLevels) :
    (s.tick h levels).startup = s.startup ∧
    (s.tick h levels).pending = s.pending := by
  generalize hw : (s.tick h levels) = t
  simp only [State.tick] at hw
  subst hw; simp

@[simp] theorem State.clearAtDiscontinuity_frame : s.clearAtDiscontinuity.clock = s.clock ∧
    s.clearAtDiscontinuity.panel = s.panel ∧ s.clearAtDiscontinuity.startup = s.startup ∧
    s.clearAtDiscontinuity.pending = s.pending := by
  generalize hw : s.clearAtDiscontinuity = t
  simp only [State.clearAtDiscontinuity] at hw
  subst hw; simp

@[simp] theorem State.discontinuity_frame (n h : FrameNo) (levels : PanelLevels) :
    (s.discontinuity n h levels).startup = s.startup ∧
    (s.discontinuity n h levels).pending = s.pending := by
  generalize hw : (s.discontinuity n h levels) = t
  simp only [State.discontinuity] at hw
  (repeat' split at hw) <;> subst hw <;> simp

@[simp] theorem State.abandonNotice_frame (f : TxFrame) : (s.abandonNotice f).clock = s.clock ∧
    (s.abandonNotice f).line = s.line ∧ (s.abandonNotice f).marks = s.marks ∧
    (s.abandonNotice f).ingest = s.ingest ∧ (s.abandonNotice f).memory = s.memory ∧
    (s.abandonNotice f).output = s.output ∧ (s.abandonNotice f).peers = s.peers ∧
    (s.abandonNotice f).panel = s.panel ∧ (s.abandonNotice f).startup = s.startup ∧
    (s.abandonNotice f).pending = s.pending := by
  generalize hw : (s.abandonNotice f) = t
  simp only [State.abandonNotice] at hw
  (repeat' split at hw) <;> subst hw <;> simp

@[simp] theorem State.ownerOfAbandoned_frame (m : CueMsg) : (s.ownerOfAbandoned m).clock = s.clock ∧
    (s.ownerOfAbandoned m).line = s.line ∧ (s.ownerOfAbandoned m).marks = s.marks ∧
    (s.ownerOfAbandoned m).ingest = s.ingest ∧ (s.ownerOfAbandoned m).memory = s.memory ∧
    (s.ownerOfAbandoned m).output = s.output ∧ (s.ownerOfAbandoned m).peers = s.peers ∧
    (s.ownerOfAbandoned m).startup = s.startup ∧ (s.ownerOfAbandoned m).pending = s.pending := by
  generalize hw : (s.ownerOfAbandoned m) = t
  simp only [State.ownerOfAbandoned] at hw
  (repeat' split at hw) <;> subst hw <;> simp

@[simp] theorem State.abandonHead_frame : s.abandonHead.clock = s.clock ∧
    s.abandonHead.line = s.line ∧ s.abandonHead.ingest = s.ingest ∧
    s.abandonHead.memory = s.memory ∧ s.abandonHead.output = s.output ∧
    s.abandonHead.peers = s.peers ∧ s.abandonHead.startup = s.startup ∧
    s.abandonHead.pending = s.pending := by
  generalize hw : s.abandonHead = t
  simp only [State.abandonHead] at hw
  (repeat' split at hw) <;> subst hw <;> simp

@[simp] theorem State.settleAttempt_frame : s.settleAttempt.clock = s.clock ∧
    s.settleAttempt.line = s.line ∧ s.settleAttempt.ingest = s.ingest ∧
    s.settleAttempt.memory = s.memory ∧ s.settleAttempt.output = s.output ∧
    s.settleAttempt.peers = s.peers ∧ s.settleAttempt.startup = s.startup ∧
    s.settleAttempt.pending = s.pending := by
  generalize hw : s.settleAttempt = t
  simp only [State.settleAttempt] at hw
  (repeat' split at hw) <;> subst hw <;> simp

@[simp] theorem State.noteClash_frame (kind : BitVec 5) : (s.noteClash kind).clock = s.clock ∧
    (s.noteClash kind).line = s.line ∧ (s.noteClash kind).marks = s.marks ∧
    (s.noteClash kind).ingest = s.ingest ∧ (s.noteClash kind).memory = s.memory ∧
    (s.noteClash kind).output = s.output ∧ (s.noteClash kind).peers = s.peers ∧
    (s.noteClash kind).panel = s.panel ∧ (s.noteClash kind).startup = s.startup ∧
    (s.noteClash kind).pending = s.pending := by
  generalize hw : (s.noteClash kind) = t
  simp only [State.noteClash] at hw
  (repeat' split at hw) <;> subst hw <;> simp

@[simp] theorem State.receiveHello_frame (source : StationId) (own : Bool) (m : HelloMsg) :
    (s.receiveHello source own m).clock = s.clock ∧
    (s.receiveHello source own m).line = s.line ∧ (s.receiveHello source own m).ingest = s.ingest ∧
    (s.receiveHello source own m).memory = s.memory ∧
    (s.receiveHello source own m).output = s.output ∧
    (s.receiveHello source own m).panel = s.panel ∧
    (s.receiveHello source own m).startup = s.startup ∧
    (s.receiveHello source own m).pending = s.pending := by
  generalize hw : (s.receiveHello source own m) = t
  simp only [State.receiveHello] at hw
  (repeat' split at hw) <;> subst hw <;> simp

@[simp] theorem State.receiveRealign_frame : s.receiveRealign.clock = s.clock ∧
    s.receiveRealign.marks = s.marks ∧ s.receiveRealign.ingest = s.ingest ∧
    s.receiveRealign.memory = s.memory ∧ s.receiveRealign.output = s.output ∧
    s.receiveRealign.panel = s.panel ∧ s.receiveRealign.startup = s.startup ∧
    s.receiveRealign.pending = s.pending := by
  generalize hw : s.receiveRealign = t
  simp only [State.receiveRealign] at hw
  (repeat' split at hw) <;> subst hw <;> simp

@[simp] theorem State.readGoodFrame_frame : s.readGoodFrame.clock = s.clock ∧
    s.readGoodFrame.line = s.line ∧ s.readGoodFrame.marks = s.marks ∧
    s.readGoodFrame.ingest = s.ingest ∧ s.readGoodFrame.memory = s.memory ∧
    s.readGoodFrame.output = s.output ∧ s.readGoodFrame.peers = s.peers ∧
    s.readGoodFrame.panel = s.panel ∧ s.readGoodFrame.startup = s.startup ∧
    s.readGoodFrame.pending = s.pending := by
  generalize hw : s.readGoodFrame = t
  simp only [State.readGoodFrame] at hw
  (repeat' split at hw) <;> subst hw <;> simp

@[simp] theorem State.raiseObjection_frame : s.raiseObjection.clock = s.clock ∧
    s.raiseObjection.line = s.line ∧ s.raiseObjection.marks = s.marks ∧
    s.raiseObjection.ingest = s.ingest ∧ s.raiseObjection.memory = s.memory ∧
    s.raiseObjection.output = s.output ∧ s.raiseObjection.peers = s.peers ∧
    s.raiseObjection.panel = s.panel ∧ s.raiseObjection.startup = s.startup ∧
    s.raiseObjection.pending = s.pending := by
  generalize hw : s.raiseObjection = t
  simp only [State.raiseObjection] at hw
  (repeat' split at hw) <;> subst hw <;> simp

end Sys2Proof.Machine
end

