-- ==== Sys2Proof/Laws/Marks.lean ====
section
/-! SUPPORT. The mark table: what putting a record in, changing one and taking one out can do. -/

namespace Sys2Proof.Machine

/-! ### A record put in (R32) -/

theorem insertMark_perm (m : Mark) : ∀ t : List Mark, (insertMark m t).Perm (m :: t)
  | [] => .refl _
  | b :: rest => by
    unfold insertMark
    split
    · exact .refl _
    · exact ((insertMark_perm m rest).cons b).trans (.swap m b rest)

theorem mem_insertMark {m x : Mark} {t : List Mark} : x ∈ insertMark m t ↔ x = m ∨ x ∈ t := by
  rw [(insertMark_perm m t).mem_iff, List.mem_cons]

@[simp] theorem insertMark_length (m : Mark) (t : List Mark) :
    (insertMark m t).length = t.length + 1 := (insertMark_perm m t).length_eq

/-! ### A record looked up and taken out -/

theorem findMark_key {t : List Mark} {key : MarkKey} {m : Mark} (h : findMark t key = some m) :
    m.key = key := by simpa using List.find?_some h

theorem findMark_mem {t : List Mark} {key : MarkKey} {m : Mark} (h : findMark t key = some m) :
    m ∈ t := List.mem_of_find?_eq_some h

theorem mem_removeMark {t : List Mark} {key : MarkKey} {x : Mark} :
    x ∈ removeMark t key ↔ x ∈ t ∧ x.key ≠ key := by simp [removeMark]

theorem findMark_removeMark_same (t : List Mark) (key : MarkKey) :
    findMark (removeMark t key) key = none := by
  simp only [findMark, List.find?_eq_none, decide_eq_true_eq]
  intro x hx
  exact (mem_removeMark.mp hx).2

/-! ### A record changed (R32, R53) -/

/-- Everything that changing a record can do: it stays in its place or is moved to it. -/
theorem replaceMark_cases (t : List Mark) (key : MarkKey) (m : Mark) :
    ((∃ x ∈ t, x.key = key ∧ x.start = m.start)
        ∧ replaceMark t key m = t.map (fun x => if x.key = key then m else x))
      ∨ ((∀ x ∈ t, x.key = key → x.start ≠ m.start)
        ∧ replaceMark t key m = insertMark m (removeMark t key)) := by
  unfold replaceMark
  split
  · next h => exact .inl ⟨by simpa using h, rfl⟩
  · next h => exact .inr ⟨by simpa using h, rfl⟩

/-- A record that keeps its key and start is not moved in the table order (R53). -/
theorem replaceMark_keys {t : List Mark} {key : MarkKey} {x m : Mark} (hx : findMark t key = some x)
    (hk : m.key = key) (hs : m.start = x.start) :
    (replaceMark t key m).map (·.key) = t.map (·.key) := by
  obtain ⟨-, h⟩ | ⟨h, -⟩ := replaceMark_cases t key m
  · rw [h, List.map_map]
    refine List.map_congr_left fun y _ => ?_
    simp only [Function.comp_apply]
    split
    · next e => rw [hk, e]
    · rfl
  · exact absurd hs.symm (h x (findMark_mem hx) (findMark_key hx))

/-- Changing a record brings no other in: what stands after is the record or stood before under another
key. -/
theorem mem_replaceMark {t : List Mark} {key : MarkKey} {x m : Mark} (h : x ∈ replaceMark t key m) :
    x = m ∨ (x ∈ t ∧ x.key ≠ key) := by
  obtain ⟨-, e⟩ | ⟨-, e⟩ := replaceMark_cases t key m
  · rw [e, List.mem_map] at h
    obtain ⟨y, hy, rfl⟩ := h
    by_cases hk : y.key = key
    · simp [hk]
    · exact .inr ⟨by simpa [hk] using hy, by simp [hk]⟩
  · rw [e, mem_insertMark, mem_removeMark] at h
    exact h

end Sys2Proof.Machine
end

