-- ==== Sys2Proof/Laws/Queue.lean ====
section
/-! SUPPORT. The capacity rule of the transmit queue said once, and what the operations that offer
frames can do to the bus controller: a run of offers, withdrawals and counts. -/

namespace Sys2Proof.Machine

/-! ### The capacity rule (R141), case by case -/

/-- The frame that an offer forms. -/
def BusController.formed (b : BusController) (msg : CueMsg) (target : StationId) : TxFrame :=
  { msg := msg, target := target, stamp := nextStamp b.queue }

/-- The queue-discards counter increased. -/
def BusController.countDiscard (b : BusController) : BusController :=
  { b with counters := { b.counters with queueDiscards := bump b.counters.queueDiscards } }

/-- Everything an offer can answer. -/
theorem BusController.offer_cases (b : BusController) (may : Bool) (msg : CueMsg) (target : StationId) :
    (may = false ∧ b.offer may msg target = { bus := b, accepted := false, discarded := none })
    ∨ (may = true ∧ msg.isBeacon = true ∧ b.freePart.any (·.msg.isBeacon) = true
        ∧ b.offer may msg target
          = { bus := b.setFree (b.freePart.map fun g =>
                if g.msg.isBeacon then b.formed msg target else g),
              accepted := true, discarded := none })
    ∨ (may = true ∧ msg.isBeacon = true ∧ b.heldPart.any (·.msg.isBeacon) = true
        ∧ b.offer may msg target = { bus := b.countDiscard, accepted := false, discarded := none })
    ∨ (may = true ∧ (msg.isBeacon = true → b.freePart.any (·.msg.isBeacon) = false
          ∧ b.heldPart.any (·.msg.isBeacon) = false)
        ∧ b.queue.length < Config.queueLimit
        ∧ b.offer may msg target
          = { bus := b.setFree (insertByPriority (b.formed msg target) b.freePart),
              accepted := true, discarded := none })
    ∨ (may = true ∧ Config.queueLimit ≤ b.queue.length ∧ b.discardFor msg.priority = none
        ∧ b.offer may msg target = { bus := b, accepted := false, discarded := none })
    ∨ (∃ g, may = true ∧ (msg.isBeacon = true → b.freePart.any (·.msg.isBeacon) = false
          ∧ b.heldPart.any (·.msg.isBeacon) = false)
        ∧ Config.queueLimit ≤ b.queue.length ∧ b.discardFor msg.priority = some g
        ∧ b.offer may msg target
          = { bus := (b.setFree (insertByPriority (b.formed msg target)
                (b.freePart.erase g))).countDiscard,
              accepted := true, discarded := some g }) := by
  cases may with
  | false => exact Or.inl ⟨rfl, rfl⟩
  | true =>
    right
    by_cases h1 : (msg.isBeacon && b.freePart.any (·.msg.isBeacon)) = true
    · left
      have h := h1
      simp only [Bool.and_eq_true] at h
      refine ⟨rfl, h.1, h.2, ?_⟩
      simp only [BusController.offer]
      rw [if_neg (by decide), if_pos h1]
      rfl
    · right
      by_cases h2 : (msg.isBeacon && b.heldPart.any (·.msg.isBeacon)) = true
      · left
        have h := h2
        simp only [Bool.and_eq_true] at h
        refine ⟨rfl, h.1, h.2, ?_⟩
        simp only [BusController.offer]
        rw [if_neg (by decide), if_neg h1, if_pos h2]
        rfl
      · right
        have hb : msg.isBeacon = true → b.freePart.any (·.msg.isBeacon) = false
            ∧ b.heldPart.any (·.msg.isBeacon) = false := by
          intro h
          rw [h, Bool.true_and, Bool.not_eq_true] at h1 h2
          exact ⟨h1, h2⟩
        by_cases h3 : b.queue.length < Config.queueLimit
        · left
          refine ⟨rfl, hb, h3, ?_⟩
          simp only [BusController.offer]
          rw [if_neg (by decide), if_neg h1, if_neg h2, if_pos h3]
          rfl
        · right
          have h3' : Config.queueLimit ≤ b.queue.length := Nat.le_of_not_lt h3
          cases h4 : b.discardFor msg.priority with
          | none =>
            left
            refine ⟨rfl, h3', rfl, ?_⟩
            simp only [BusController.offer, h4]
            rw [if_neg (by decide), if_neg h1, if_neg h2, if_neg h3]
          | some g =>
            right
            refine ⟨g, rfl, hb, h3', rfl, ?_⟩
            simp only [BusController.offer, h4]
            rw [if_neg (by decide), if_neg h1, if_neg h2, if_neg h3]
            rfl

/-! ### What operations can do to the controller -/

/-- One move of the bus controller, for a station that may transmit or not. -/
inductive BusMove (may : Bool) : BusController → BusController → Prop
  | offered (b : BusController) (msg : CueMsg) (target : StationId) :
      BusMove may b (b.offer may msg target).bus
  | counted (b : BusController) (c : BusCounters) : BusMove may b { b with counters := c }
  | owed (b : BusController) (x : Bool) : BusMove may b { b with helloOwed := x }
  | withdrawn (b : BusController) (keep : TxFrame → Bool) :
      BusMove may b (b.setFree (b.freePart.filter keep))

/-- Moves, one after another. -/
inductive BusRun (may : Bool) : BusController → BusController → Prop
  | refl (b : BusController) : BusRun may b b
  | move {a b c : BusController} : BusRun may a b → BusMove may b c → BusRun may a c

theorem BusRun.trans {may : Bool} {a b c : BusController} (h : BusRun may a b) (k : BusRun may b c) :
    BusRun may a c := by
  induction k with
  | refl => exact h
  | move _ m ih => exact .move ih m

/-- What every move keeps, a run keeps. -/
theorem BusRun.keeps {may : Bool} {P : BusController → Prop}
    (hm : ∀ a b, BusMove may a b → P a → P b) {a b : BusController} (h : BusRun may a b) (ha : P a) :
    P b := by
  induction h with
  | refl => exact ha
  | move _ m ih => exact hm _ _ m ih

/-- The parts of the controller that no move touches. -/
theorem BusMove.fixed {may : Bool} {a b : BusController} (h : BusMove may a b) :
    b.attempts = a.attempts ∧ b.objectionRun = a.objectionRun ∧ b.suspect = a.suspect
      ∧ b.clashSeen = a.clashSeen ∧ b.tracking = a.tracking ∧ b.activity = a.activity := by
  cases h with
  | counted | owed | withdrawn => exact ⟨rfl, rfl, rfl, rfl, rfl, rfl⟩
  | offered msg target =>
    rcases a.offer_cases may msg target with
      ⟨_, e⟩ | ⟨_, _, _, e⟩ | ⟨_, _, _, e⟩ | ⟨_, _, _, e⟩ | ⟨_, _, _, e⟩ | ⟨_, _, _, _, _, e⟩ <;>
      rw [e] <;> exact ⟨rfl, rfl, rfl, rfl, rfl, rfl⟩

theorem BusRun.fixed {may : Bool} {a b : BusController} (h : BusRun may a b) :
    b.attempts = a.attempts ∧ b.objectionRun = a.objectionRun ∧ b.suspect = a.suspect
      ∧ b.clashSeen = a.clashSeen ∧ b.tracking = a.tracking ∧ b.activity = a.activity := by
  induction h with
  | refl => exact ⟨rfl, rfl, rfl, rfl, rfl, rfl⟩
  | move _ m ih =>
    obtain ⟨h1, h2, h3, h4, h5, h6⟩ := m.fixed
    obtain ⟨k1, k2, k3, k4, k5, k6⟩ := ih
    exact ⟨h1.trans k1, h2.trans k2, h3.trans k3, h4.trans k4, h5.trans k5, h6.trans k6⟩

/-! ### States that differ by a run at the controller, and by anything elsewhere that leaves the
station's leave to transmit as it was -/

/-- The bus controller of `t` comes from that of `s` by a run of moves. -/
def State.Reaches (s t : State) : Prop :=
  t.mayTransmit = s.mayTransmit ∧ BusRun s.mayTransmit s.bus t.bus

theorem State.Reaches.refl (s : State) : s.Reaches s := ⟨rfl, .refl _⟩

theorem State.Reaches.trans {s t u : State} (h : s.Reaches t) (k : t.Reaches u) : s.Reaches u := by
  refine ⟨k.1.trans h.1, h.2.trans ?_⟩
  have := k.2
  rwa [h.1] at this

theorem State.Reaches.of_eq {s t : State} (hb : t.bus = s.bus) (hm : t.mayTransmit = s.mayTransmit) :
    s.Reaches t := ⟨hm, by rw [hb]; exact .refl _⟩

/-- A state that differs in neither the bus, the service state nor the station id. -/
theorem State.Reaches.elsewhere {s t u : State} (h : s.Reaches t) (hb : u.bus = t.bus)
    (hl : u.line.service = t.line.service) (hi : u.startup.id = t.startup.id) : s.Reaches u := by
  refine h.trans (.of_eq hb ?_)
  simp [State.mayTransmit, hl, hi]

theorem State.Reaches.move {s : State} {b : BusController} (h : BusMove s.mayTransmit s.bus b) :
    s.Reaches (s.setBus b) := ⟨rfl, .move (.refl _) h⟩

/-! ### The operations of the queue -/

theorem State.offerRaw_reaches (s : State) (msg : CueMsg) (target : StationId) :
    s.Reaches (s.offerRaw msg target).1 :=
  ⟨rfl, .move (.move (.refl _) (.offered _ msg target)) (.owed _ _)⟩

theorem State.notice_reaches (s : State) (code : Byte) (tick : Option FrameNo) (frame : FrameNo)
    (detail : BitVec 16) : s.Reaches (s.notice code tick frame detail) :=
  s.offerRaw_reaches _ _

theorem serveKeys_reaches : ∀ (l : List MarkKey) (s : State), s.Reaches (serveKeys l s)
  | [], s => .of_eq rfl rfl
  | k :: rest, s => by
    unfold serveKeys
    repeat' split
    · exact serveKeys_reaches rest s
    · exact (s.offerRaw_reaches _ _).trans (serveKeys_reaches rest _)
    · exact .of_eq rfl rfl

theorem State.serve_reaches (s : State) : s.Reaches s.serve := serveKeys_reaches _ s

theorem State.loseOwnOpen_reaches (s : State) (m : MarkOpenMsg) : s.Reaches (s.loseOwnOpen m) := by
  refine ⟨by simp [State.mayTransmit], ?_⟩
  simp only [State.loseOwnOpen, State.withdrawClose, State.setBus_bus, State.dropOpenKey_frame]
  exact .move (.refl _) (.withdrawn _ _)

theorem State.pressRefused_reaches (s : State) (line reason : Byte) (frame : FrameNo) :
    s.Reaches (s.pressRefused line reason frame) := s.notice_reaches _ _ _ _

theorem State.ownerOfDiscard_reaches (s : State) (m : CueMsg) : s.Reaches (s.ownerOfDiscard m) := by
  cases m with
  | markOpen o =>
    simp only [State.ownerOfDiscard]
    split
    · exact .refl s
    · exact (s.loseOwnOpen_reaches o).trans (State.pressRefused_reaches _ _ _ _)
  | sessionStart a => exact s.pressRefused_reaches _ _ _
  | sessionEnd a => exact s.pressRefused_reaches _ _ _
  | _ => exact .refl s

theorem State.offer_reaches (s : State) (msg : CueMsg) (target : StationId) :
    s.Reaches (s.offer msg target).1 := by
  have h := s.offerRaw_reaches msg target
  rcases e : s.offerRaw msg target with ⟨t, ok, d⟩
  rw [e] at h
  cases d with
  | none => simpa [State.offer, e] using h
  | some g =>
    have : (s.offer msg target).1 = (t.ownerOfDiscard g.msg).serve := by simp [State.offer, e]
    rw [this]
    exact (h.trans (State.ownerOfDiscard_reaches _ _)).trans (State.serve_reaches _)

theorem State.sessionIgnored_reaches (s : State) : s.Reaches s.sessionIgnored :=
  ⟨rfl, .move (.refl _) (.counted _ _)⟩

end Sys2Proof.Machine
end

