-- ==== Sys2Proof/Laws/Order.lean ====
section
/-! SUPPORT. What the moves of the bus controller keep: the queue's bounds, its order, and its silence
while the station may not transmit. -/

namespace Sys2Proof.Machine

/-! ### The parts of the queue -/

theorem BusController.parts (b : BusController) : b.heldPart ++ b.freePart = b.queue := by
  unfold BusController.heldPart BusController.freePart
  split
  · exact List.take_append_drop 1 _
  · rfl

theorem BusController.heldPart_length (b : BusController) : b.heldPart.length ≤ 1 := by
  unfold BusController.heldPart
  split <;> simp only [List.length_take, List.length_nil, Nat.zero_le, Nat.min_le_left]

@[simp] theorem BusController.setFree_queue (b : BusController) (l : List TxFrame) :
    (b.setFree l).queue = b.heldPart ++ l := rfl

@[simp] theorem BusController.setFree_headHeld (b : BusController) (l : List TxFrame) :
    (b.setFree l).headHeld = b.headHeld := rfl

/-- The free part replaced by another, which is again free if a head is held or none is. -/
theorem BusController.setFree_parts (b : BusController) (l : List TxFrame)
    (h : b.headHeld = true → b.queue ≠ []) :
    (b.setFree l).heldPart = b.heldPart ∧ (b.setFree l).freePart = l := by
  by_cases hh : b.headHeld = true
  · cases hq : b.queue with
    | nil => exact absurd hq (h hh)
    | cons f rest =>
      simp [BusController.heldPart, BusController.freePart, hh, hq]
  · simp [BusController.heldPart, BusController.freePart, hh]

theorem insertByPriority_length (f : TxFrame) : ∀ l : List TxFrame,
    (insertByPriority f l).length = l.length + 1
  | [] => rfl
  | g :: rest => by
    unfold insertByPriority
    split
    · rfl
    · simp [insertByPriority_length f rest]

theorem insertByPriority_perm (f : TxFrame) : ∀ l : List TxFrame,
    (insertByPriority f l).Perm (f :: l)
  | [] => .refl _
  | g :: rest => by
    unfold insertByPriority
    split
    · exact .refl _
    · exact ((insertByPriority_perm f rest).cons g).trans (.swap ..)

theorem mem_insertByPriority {f g : TxFrame} {l : List TxFrame} :
    g ∈ insertByPriority f l ↔ g = f ∨ g ∈ l := by
  rw [(insertByPriority_perm f l).mem_iff, List.mem_cons]

theorem insertOldest_perm (f : TxFrame) : ∀ l : List TxFrame, (insertOldest f l).Perm (f :: l)
  | [] => .refl _
  | g :: rest => by
    unfold insertOldest
    split
    · exact ((insertOldest_perm f rest).cons g).trans (.swap ..)
    · exact .refl _

theorem nextStamp_gt {q : List TxFrame} {f : TxFrame} (h : f ∈ q) : f.stamp < nextStamp q := by
  have grow : ∀ (l : List TxFrame) (n : Nat),
      n ≤ l.foldl (fun n g => max n g.stamp) n ∧ ∀ f ∈ l, f.stamp ≤ l.foldl (fun n g => max n g.stamp) n := by
    intro l
    induction l with
    | nil => intro n; simp
    | cons g l ih =>
      intro n
      obtain ⟨h1, h2⟩ := ih (max n g.stamp)
      refine ⟨by simp only [List.foldl_cons]; omega, ?_⟩
      intro f hf
      simp only [List.foldl_cons]
      rcases List.mem_cons.mp hf with rfl | hf
      · omega
      · exact h2 f hf
  exact Nat.lt_succ_of_le ((grow q 0).2 f h)

theorem youngest_mem : ∀ {l : List TxFrame} {g : TxFrame}, youngest l = some g → g ∈ l
  | f :: rest, g, h => by
    unfold youngest at h
    cases e : youngest rest with
    | none => simp only [e, Option.some.injEq] at h; subst h; simp
    | some x =>
      simp only [e] at h
      split at h
      · cases h; simp
      · cases h; exact List.mem_cons_of_mem _ (youngest_mem e)

theorem BusController.discardFor_mem {b : BusController} {n : Nat} {g : TxFrame}
    (h : b.discardFor n = some g) : g ∈ b.freePart ∧ n < g.msg.priority := by
  have := List.mem_filter.mp (youngest_mem h)
  exact ⟨this.1, by simpa using this.2⟩

theorem beacon_priority {m : CueMsg} (h : m.isBeacon = true) : m.priority = 4 := by
  cases m <;> simp_all [CueMsg.isBeacon, CueMsg.priority]

theorem not_beacon_of_priority {m : CueMsg} (h : m.isBeacon = false) : m.priority ≠ 4 := by
  cases m <;> simp_all [CueMsg.isBeacon, CueMsg.priority]

/-! ### Bounds -/

theorem BusController.bounded_iff {b : BusController} :
    b.bounded = true ↔ b.queue.length ≤ Config.queueLimit
      ∧ (b.queue.filter (·.msg.isBeacon)).length ≤ 1 := by
  simp [BusController.bounded]

theorem noBeacons {l : List TxFrame} (h : l.any (·.msg.isBeacon) = false) :
    l.filter (·.msg.isBeacon) = [] := by
  rw [List.filter_eq_nil_iff]
  intro a ha hb
  have := List.any_eq_false.mp h a ha
  exact this hb

theorem BusMove.bounded {may : Bool} {a b : BusController} (h : BusMove may a b)
    (ha : a.bounded = true) : b.bounded = true := by
  rw [BusController.bounded_iff] at ha ⊢
  have hl : a.heldPart.length + a.freePart.length = a.queue.length := by
    rw [← a.parts]; simp
  have hf : (a.heldPart.filter (·.msg.isBeacon)).length
      + (a.freePart.filter (·.msg.isBeacon)).length
      = (a.queue.filter (·.msg.isBeacon)).length := by
    rw [← a.parts]; simp
  cases h with
  | counted => exact ha
  | owed => exact ha
  | withdrawn keep =>
    simp only [BusController.setFree_queue, List.length_append, List.filter_append, List.filter_filter]
    have h1 := List.length_filter_le keep a.freePart
    have h2 : (List.filter (fun x => x.msg.isBeacon && keep x) a.freePart).length
        ≤ (a.freePart.filter (·.msg.isBeacon)).length := by
      have : List.filter (fun x => x.msg.isBeacon && keep x) a.freePart
          = (a.freePart.filter (·.msg.isBeacon)).filter keep := by
        rw [List.filter_filter]
        congr 1
        funext x
        exact Bool.and_comm _ _
      rw [this]
      exact List.length_filter_le _ _
    omega
  | offered msg target =>
    rcases a.offer_cases may msg target with
      ⟨_, e⟩ | ⟨_, hb, hany, e⟩ | ⟨_, _, _, e⟩ | ⟨_, hb, hlt, e⟩ | ⟨_, _, _, e⟩ | ⟨g, _, hb, hle, hd, e⟩ <;>
      rw [e]
    · exact ha
    · simp only [BusController.setFree_queue, List.length_append, List.length_map,
        List.filter_append, List.filter_map]
      have hp : ((fun x : TxFrame => x.msg.isBeacon) ∘ fun g =>
          if g.msg.isBeacon then a.formed msg target else g) = fun x => x.msg.isBeacon := by
        funext x
        simp only [Function.comp]
        split
        · rename_i hx; simp [BusController.formed, hb, hx]
        · rfl
      rw [hp]
      omega
    · exact ha
    · simp only [BusController.setFree_queue, List.length_append, List.filter_append,
        insertByPriority_length]
      have hc : ((insertByPriority (a.formed msg target) a.freePart).filter
          (·.msg.isBeacon)).length
          = ((a.formed msg target :: a.freePart).filter (·.msg.isBeacon)).length :=
        ((insertByPriority_perm _ _).filter _).length_eq
      rw [hc]
      cases hm : msg.isBeacon with
      | false =>
        simp only [BusController.formed, List.filter_cons, hm]
        simp only [Bool.false_eq_true, if_false]
        omega
      | true =>
        have := noBeacons (hb hm).1
        have h2 := noBeacons (hb hm).2
        simp only [BusController.formed, List.filter_cons, hm, if_true, this, h2, List.length_cons,
          List.length_nil]
        omega
    · exact ha
    · have hg := BusController.discardFor_mem hd
      have hlen := List.length_erase_of_mem hg.1
      have hpos : 0 < a.freePart.length := List.length_pos_of_mem hg.1
      simp only [BusController.countDiscard, BusController.setFree_queue, List.length_append,
        List.filter_append, insertByPriority_length, hlen]
      have hc : ((insertByPriority (a.formed msg target) (a.freePart.erase g)).filter
          (·.msg.isBeacon)).length
          = ((a.formed msg target :: a.freePart.erase g).filter (·.msg.isBeacon)).length :=
        ((insertByPriority_perm _ _).filter _).length_eq
      have he : ((a.freePart.erase g).filter (·.msg.isBeacon)).length
          ≤ (a.freePart.filter (·.msg.isBeacon)).length :=
        (List.erase_sublist.filter _).length_le
      rw [hc]
      cases hm : msg.isBeacon with
      | false =>
        simp only [BusController.formed, List.filter_cons, hm]
        simp only [Bool.false_eq_true, if_false]
        omega
      | true =>
        have h1 := noBeacons (hb hm).1
        have h2 := noBeacons (hb hm).2
        rw [h1] at he
        simp only [List.length_nil] at he
        simp only [BusController.formed, List.filter_cons, hm, if_true, h2, List.length_cons,
          List.length_nil]
        omega

/-! ### Silence -/

theorem BusMove.silent {a b : BusController} (h : BusMove false a b) (ha : a.silent) : b.silent := by
  obtain ⟨hq, h1, h2⟩ := ha
  cases h with
  | counted => exact ⟨hq, h1, h2⟩
  | owed => exact ⟨hq, h1, h2⟩
  | withdrawn keep =>
    refine ⟨?_, h1, h2⟩
    have hp := a.parts
    rw [hq] at hp
    obtain ⟨hh, hf⟩ := List.append_eq_nil_iff.mp hp
    simp [hh, hf]
  | offered msg target =>
    have e : a.offer false msg target = { bus := a, accepted := false, discarded := none } := rfl
    rw [e]
    exact ⟨hq, h1, h2⟩

/-! ### Order -/

theorem insertByPriority_pairwise {f : TxFrame} {l : List TxFrame}
    (h : l.Pairwise TxFrame.ahead) (hs : ∀ g ∈ l, g.stamp < f.stamp) :
    (insertByPriority f l).Pairwise TxFrame.ahead := by
  induction l with
  | nil => simp [insertByPriority]
  | cons g rest ih =>
    rw [List.pairwise_cons] at h
    unfold insertByPriority
    split
    · rename_i hlt
      rw [List.pairwise_cons]
      refine ⟨?_, List.pairwise_cons.mpr h⟩
      intro x hx
      rcases List.mem_cons.mp hx with rfl | hx
      · exact Or.inl hlt
      · rcases h.1 x hx with hgx | hgx
        · exact Or.inl (Nat.lt_trans hlt hgx)
        · exact Or.inl (by omega)
    · rename_i hge
      rw [List.pairwise_cons]
      refine ⟨?_, ih h.2 fun x hx => hs x (List.mem_cons_of_mem _ hx)⟩
      intro x hx
      rcases mem_insertByPriority.mp hx with rfl | hx
      · have := hs g (List.mem_cons_self ..)
        unfold TxFrame.ahead
        omega
      · exact h.1 x hx

theorem insertOldest_pairwise {f : TxFrame} {l : List TxFrame} (h : l.Pairwise TxFrame.ahead)
    (hs : ∀ g ∈ l, f.msg.priority = g.msg.priority → f.stamp < g.stamp) :
    (insertOldest f l).Pairwise TxFrame.ahead := by
  induction l with
  | nil => simp [insertOldest]
  | cons g rest ih =>
    have hc := h
    rw [List.pairwise_cons] at h
    unfold insertOldest
    split
    · rename_i hlt
      rw [List.pairwise_cons]
      refine ⟨?_, ih h.2 fun x hx => hs x (List.mem_cons_of_mem _ hx)⟩
      intro x hx
      rcases List.mem_cons.mp ((insertOldest_perm f rest).mem_iff.mp hx) with rfl | hx
      · exact Or.inl hlt
      · exact h.1 x hx
    · rename_i hge
      rw [List.pairwise_cons]
      refine ⟨?_, hc⟩
      intro x hx
      have hg : f.msg.priority ≤ g.msg.priority := Nat.le_of_not_lt hge
      have hxg : g.msg.priority ≤ x.msg.priority := by
        rcases List.mem_cons.mp hx with rfl | hx
        · exact Nat.le_refl _
        · rcases h.1 x hx with k | k <;> omega
      rcases Nat.lt_or_eq_of_le (Nat.le_trans hg hxg) with k | k
      · exact Or.inl k
      · exact Or.inr ⟨k, hs x hx k⟩

/-- A pairwise order, with the frames of one kind replaced by a fresh one that stands in their place. -/
theorem replaceBeacon_pairwise {f : TxFrame} {l : List TxFrame} (h : l.Pairwise TxFrame.ahead)
    (hf : f.msg.isBeacon = true) (hb : (l.filter (·.msg.isBeacon)).length ≤ 1) :
    (l.map fun g => if g.msg.isBeacon then f else g).Pairwise TxFrame.ahead := by
  have hp := beacon_priority hf
  induction l with
  | nil => simp
  | cons g rest ih =>
    rw [List.pairwise_cons] at h
    simp only [List.map_cons, List.pairwise_cons, List.mem_map]
    cases hg : g.msg.isBeacon with
    | false =>
      refine ⟨?_, ih h.2 (by simpa [List.filter_cons, hg] using hb)⟩
      rintro _ ⟨x, hx, rfl⟩
      have hgp := not_beacon_of_priority hg
      simp only [Bool.false_eq_true, if_false]
      split
      · rename_i hxb
        have := h.1 x hx
        rw [TxFrame.ahead, beacon_priority hxb] at this
        refine Or.inl ?_
        omega
      · exact h.1 x hx
    | true =>
      have hrest : rest.filter (·.msg.isBeacon) = [] := by
        rw [List.filter_cons, if_pos hg, List.length_cons] at hb
        exact List.eq_nil_of_length_eq_zero (by omega)
      refine ⟨?_, ih h.2 (by simp [hrest])⟩
      rintro _ ⟨x, hx, rfl⟩
      have hxb : x.msg.isBeacon = false := by
        have := List.filter_eq_nil_iff.mp hrest x hx
        simpa using this
      have hgp := beacon_priority hg
      have := h.1 x hx
      rw [TxFrame.ahead, hgp] at this
      have hxp := not_beacon_of_priority hxb
      simp only [if_true, hxb, Bool.false_eq_true, if_false]
      refine Or.inl ?_
      omega

theorem BusController.setFree_ordered {b : BusController} {l : List TxFrame}
    (hh : b.headHeld = true → b.queue ≠ []) (hl : l.Pairwise TxFrame.ahead)
    (hs : ∀ f ∈ b.heldPart, ∀ g ∈ l, f.msg.priority = g.msg.priority → f.stamp < g.stamp) :
    (b.setFree l).ordered := by
  have hp := b.setFree_parts l hh
  refine ⟨by rw [hp.2]; exact hl, by rw [hp.1, hp.2]; exact hs, ?_⟩
  intro h hq
  have h' := hh h
  simp only [BusController.setFree_queue, BusController.heldPart, List.append_eq_nil_iff] at hq
  rw [setFree_headHeld] at h
  rw [if_pos h] at hq
  cases hqq : b.queue with
  | nil => exact h' hqq
  | cons f rest => rw [hqq] at hq; simp at hq

theorem BusMove.ordered {may : Bool} {a b : BusController} (h : BusMove may a b)
    (hb : a.bounded = true) (ha : a.ordered) : b.ordered := by
  obtain ⟨hp, ho, hh⟩ := ha
  have hmem : ∀ f, f ∈ a.heldPart ∨ f ∈ a.freePart → f ∈ a.queue := by
    intro f hf
    rw [← a.parts]
    exact List.mem_append.mpr hf
  have hbf : (a.freePart.filter (·.msg.isBeacon)).length ≤ 1 := by
    have h1 := (BusController.bounded_iff.mp hb).2
    rw [← a.parts, List.filter_append, List.length_append] at h1
    omega
  cases h with
  | counted => exact ⟨hp, ho, hh⟩
  | owed => exact ⟨hp, ho, hh⟩
  | withdrawn keep =>
    exact BusController.setFree_ordered hh (hp.filter _)
      fun f hf g hg => ho f hf g (List.mem_filter.mp hg).1
  | offered msg target =>
    have hst : ∀ f ∈ a.queue, f.stamp < (a.formed msg target).stamp := fun f hf => nextStamp_gt hf
    have fresh : ∀ l, l.Pairwise TxFrame.ahead → (∀ g ∈ l, g ∈ a.freePart) →
        (a.setFree (insertByPriority (a.formed msg target) l)).ordered := by
      intro l hl hsub
      refine BusController.setFree_ordered hh
        (insertByPriority_pairwise hl fun g hg => hst g (hmem g (Or.inr (hsub g hg)))) ?_
      intro f hf g hg e
      rcases mem_insertByPriority.mp hg with rfl | hg
      · exact hst f (hmem f (Or.inl hf))
      · exact ho f hf g (hsub g hg) e
    rcases a.offer_cases may msg target with
      ⟨_, e⟩ | ⟨_, hbm, hany, e⟩ | ⟨_, _, _, e⟩ | ⟨_, _, hlt, e⟩ | ⟨_, _, _, e⟩ | ⟨g, _, _, hle, hd, e⟩ <;>
      rw [e]
    · exact ⟨hp, ho, hh⟩
    · refine BusController.setFree_ordered hh (replaceBeacon_pairwise hp hbm hbf) ?_
      intro f hf g hg he
      obtain ⟨x, hx, rfl⟩ := List.mem_map.mp hg
      split
      · exact hst f (hmem f (Or.inl hf))
      · rename_i hxb
        rw [if_neg hxb] at he
        exact ho f hf x hx he
    · exact ⟨hp, ho, hh⟩
    · exact fresh _ hp fun _ h => h
    · exact ⟨hp, ho, hh⟩
    · exact fresh _ (hp.sublist List.erase_sublist) fun _ h => List.mem_of_mem_erase h

end Sys2Proof.Machine
end

