-- ==== Sys2Proof/Laws/PerInstr.lean ====
section
/-! SUPPORT. What holds of every command as syntax, one lemma for each constructor. -/

namespace Sys2Proof

/-- Pages in ascending order lie above the first of them. -/
theorem ascending_head_lt : ∀ (p : Page) (l : List Page), ascending (p :: l) = true →
    ∀ q ∈ l, p.toNat < q.toNat
  | _, [], _ => by simp
  | p, r :: rest, h => by
    simp only [ascending, Bool.and_eq_true, decide_eq_true_eq] at h
    intro q hq
    rcases List.mem_cons.mp hq with rfl | hq
    · exact h.1
    · have := ascending_head_lt r rest h.2 q hq
      omega

/-- The tail of an ascending list is ascending. -/
theorem ascending_tail (p : Page) (l : List Page) (h : ascending (p :: l) = true) :
    ascending l = true := by
  cases l with
  | nil => rfl
  | cons q rest => simp only [ascending, Bool.and_eq_true] at h; exact h.2

/-- Pages in ascending order are listed once each. -/
theorem ascending_nodup : ∀ l : List Page, ascending l = true → l.Nodup
  | [], _ => List.nodup_nil
  | p :: l, h => by
    refine List.nodup_cons.mpr ⟨fun hp => ?_, ascending_nodup l (ascending_tail p l h)⟩
    have := ascending_head_lt p l h p hp
    omega

/-- The failing pages that a command carries. -/
def Instr.failingPages : Instr → List Page
  | .resetAsserted listed => listed
  | .memoryTestComplete failing => failing
  | .objectionSlotEnd _ _ listed => listed
  | .powerApplied _ _ | .resetReleased _ | .configReadComplete _ | .referencePulse _ _
  | .absenceTimerExpiry _ | .ownTickTimerExpiry _ | .joinLimit | .rosterSilent _ | .rosterFreed _
  | .cellHeaderArrival _ | .cellPayloadBytes _ | .pageWriteComplete | .readComplete | .checkFail _
  | .lineTrackingFound | .frameStart | .arbitrationLost | .idClash | .frameTest _
  | .cellLeavesOutputLink => []

end Sys2Proof

namespace Sys2Proof.Laws.FailingPages

/-- A well-formed command names each failing page once, and at most the 33 that end a memory test
(R110). -/
def Statement (i : Instr) : Prop :=
  i.wf = true → i.failingPages.Nodup ∧ i.failingPages.length ≤ Config.badPageLimit + 1

/-- Of a command that carries no pages. -/
theorem of_nil (i : Instr) (h : i.failingPages = []) : Statement i := by
  intro _; rw [h]; exact ⟨List.nodup_nil, Nat.zero_le _⟩

/-- Of a command whose well-formedness asks for ascending pages, at most as many as a number. -/
theorem of_ascending (i : Instr) (n : Nat) (hn : n ≤ Config.badPageLimit + 1)
    (h : i.wf = (ascending i.failingPages && decide (i.failingPages.length ≤ n))) : Statement i := by
  intro w
  rw [h, Bool.and_eq_true, decide_eq_true_eq] at w
  exact ⟨ascending_nodup _ w.1, Nat.le_trans w.2 hn⟩

theorem powerApplied (a : Bool) (straps : StationId) : Statement (.powerApplied a straps) := of_nil _ rfl
theorem resetAsserted (listed : List Page) : Statement (.resetAsserted listed) :=
  of_ascending _ Config.badPageLimit (Nat.le_succ _) rfl
theorem resetReleased (straps : StationId) : Statement (.resetReleased straps) := of_nil _ rfl
theorem configReadComplete (r : List Byte) : Statement (.configReadComplete r) := of_nil _ rfl
theorem memoryTestComplete (failing : List Page) : Statement (.memoryTestComplete failing) :=
  of_ascending _ (Config.badPageLimit + 1) (Nat.le_refl _) rfl
theorem referencePulse (n : FrameNo) (l : PanelLevels) : Statement (.referencePulse n l) := of_nil _ rfl
theorem absenceTimerExpiry (l : PanelLevels) : Statement (.absenceTimerExpiry l) := of_nil _ rfl
theorem ownTickTimerExpiry (l : PanelLevels) : Statement (.ownTickTimerExpiry l) := of_nil _ rfl
theorem joinLimit : Statement .joinLimit := of_nil _ rfl
theorem rosterSilent (id : StationId) : Statement (.rosterSilent id) := of_nil _ rfl
theorem rosterFreed (id : StationId) : Statement (.rosterFreed id) := of_nil _ rfl
theorem cellHeaderArrival (h : List Byte) : Statement (.cellHeaderArrival h) := of_nil _ rfl
theorem cellPayloadBytes (b : List Byte) : Statement (.cellPayloadBytes b) := of_nil _ rfl
theorem pageWriteComplete : Statement .pageWriteComplete := of_nil _ rfl
theorem readComplete : Statement .readComplete := of_nil _ rfl
theorem checkFail (n : Nat) : Statement (.checkFail n) := of_nil _ rfl
theorem lineTrackingFound : Statement .lineTrackingFound := of_nil _ rfl
theorem frameStart : Statement .frameStart := of_nil _ rfl
theorem arbitrationLost : Statement .arbitrationLost := of_nil _ rfl
theorem idClash : Statement .idClash := of_nil _ rfl
theorem frameTest (f : LineFrame) : Statement (.frameTest f) := of_nil _ rfl
theorem objectionSlotEnd (driven : Bool) (straps : StationId) (listed : List Page) :
    Statement (.objectionSlotEnd driven straps listed) :=
  of_ascending _ Config.badPageLimit (Nat.le_succ _) rfl
theorem cellLeavesOutputLink : Statement .cellLeavesOutputLink := of_nil _ rfl

end Sys2Proof.Laws.FailingPages
end

