-- ==== Sys2Proof/Laws/Reach.lean ====
section
/-! SUPPORT. What each operation of the other blocks can do to the bus controller: one lemma each, a
run of moves. -/

namespace Sys2Proof.Machine

variable (s : State)

/-! ### Updates elsewhere -/

theorem State.setMarks_reaches (x : MarkUnit) : s.Reaches (s.setMarks x) := .of_eq rfl rfl
theorem State.setIngest_reaches (x : Ingest) : s.Reaches (s.setIngest x) := .of_eq rfl rfl
theorem State.setMemory_reaches (x : DelayMemory) : s.Reaches (s.setMemory x) := .of_eq rfl rfl
theorem State.setOutput_reaches (x : OutputStage) : s.Reaches (s.setOutput x) := .of_eq rfl rfl
theorem State.setPeers_reaches (x : PeerMonitor) : s.Reaches (s.setPeers x) := .of_eq rfl rfl
theorem State.setPanel_reaches (x : PanelUnit) : s.Reaches (s.setPanel x) := .of_eq rfl rfl
theorem State.setClock_reaches (x : ProgramClock) : s.Reaches (s.setClock x) := .of_eq rfl rfl

/-- The delay line changed, TEST being neither entered nor left. -/
theorem State.setLine_reaches {x : DelayLine} (h : x.service = .test ↔ s.line.service = .test) :
    s.Reaches (s.setLine x) := by
  refine .of_eq rfl ?_
  unfold State.mayTransmit
  exact congrArg _ (decide_eq_decide.mpr (not_congr h))

/-- A state that differs in neither the bus, the service state nor the station id. -/
theorem State.Reaches.same {s t : State} (hb : t.bus = s.bus) (hl : t.line = s.line)
    (hi : t.startup = s.startup) : s.Reaches t :=
  .of_eq hb (by simp [State.mayTransmit, hl, hi])

/-! ### Mark table -/

theorem State.setTable_reaches (t : List Mark) : s.Reaches (s.setTable t) := .of_eq rfl rfl

theorem State.setMarkCounters_reaches (c : MarkCounters) : s.Reaches (s.setMarkCounters c) :=
  .of_eq rfl rfl

theorem State.clearMarks_reaches : s.Reaches s.clearMarks := .of_eq rfl rfl

theorem State.tooLate_reaches (key : MarkKey) (start : FrameNo) : s.Reaches (s.tooLate key start) :=
  (s.setMarkCounters_reaches _).trans (State.notice_reaches _ _ _ _ _)

theorem State.gapCheck_reaches (o : MarkOpenMsg) : s.Reaches (s.gapCheck o) := by
  simp only [State.gapCheck]
  repeat' split
  · exact .refl s
  · exact s.setPeers_reaches _
  · exact ((s.setPeers_reaches _).trans (State.setMarkCounters_reaches _ _)).trans
      (State.notice_reaches _ _ _ _ _)

theorem State.admitMark_reaches (m : Mark) (received : FrameNo) :
    s.Reaches (s.admitMark m received) := by
  simp only [State.admitMark]
  split
  · exact (s.setMarkCounters_reaches _).trans (State.notice_reaches _ _ _ _ _)
  · cases m.trimmed
    · exact (s.setTable_reaches _).trans (State.setMarkCounters_reaches _ _)
    · exact ((s.setTable_reaches _).trans (State.setMarkCounters_reaches _ _)).trans
        (State.notice_reaches _ _ _ _ _)

theorem State.applyOpen_reaches (o : MarkOpenMsg) (live : Bool) : s.Reaches (s.applyOpen o live) := by
  have h1 : s.Reaches (if laneForced o = true then s.setMarkCounters
      { s.marks.counters with laneForced := bump s.marks.counters.laneForced } else s) := by
    split
    · exact s.setMarkCounters_reaches _
    · exact .refl s
  simp only [State.applyOpen]
  generalize (if laneForced o = true then s.setMarkCounters
      { s.marks.counters with laneForced := bump s.marks.counters.laneForced } else s) = t at h1 ⊢
  split
  · split
    · exact s.setMarkCounters_reaches _
    · exact .refl s
  · split
    · exact h1.trans (State.tooLate_reaches _ _ _)
    · have h2 : ∀ m : Mark, t.Reaches (if (m.spanEmpty && (live || !m.isOpen)) = true
          then t.tooLate o.key o.start else t.admitMark m o.start) := by
        intro m
        split
        · exact t.tooLate_reaches _ _
        · exact t.admitMark_reaches _ _
      exact h1.trans (h2 _)

theorem State.receiveOpen_reaches (o : MarkOpenMsg) : s.Reaches (s.receiveOpen o) := by
  unfold State.receiveOpen
  split
  · exact ((s.setMarks_reaches _).trans (State.gapCheck_reaches _ _)).trans
      (State.applyOpen_reaches _ _ _)
  · exact .refl s

theorem State.closeIgnored_reaches (key : MarkKey) (fin : FrameNo) :
    s.Reaches (s.closeIgnored key fin) :=
  (s.setMarkCounters_reaches _).trans (State.notice_reaches _ _ _ _ _)

theorem State.countCue_reaches : s.Reaches s.countCue := .of_eq rfl rfl

theorem State.receiveClose_reaches (origin : StationId) (seq : Byte) (fin : FrameNo) :
    s.Reaches (s.receiveClose origin seq fin) := by
  simp only [State.receiveClose]
  split
  · refine s.countCue_reaches.trans ?_
    split
    · exact State.closeIgnored_reaches _ _ _
    · split
      · exact State.closeIgnored_reaches _ _ _
      · split
        · exact State.closeIgnored_reaches _ _ _
        · exact State.setTable_reaches _ _
  · exact .refl s

theorem State.retractLate_reaches (key : MarkKey) : s.Reaches (s.retractLate key) :=
  (s.setMarkCounters_reaches _).trans (State.notice_reaches _ _ _ _ _)

theorem State.receiveRetract_reaches (origin : StationId) (seq : Byte) :
    s.Reaches (s.receiveRetract origin seq) := by
  simp only [State.receiveRetract]
  split
  · refine s.countCue_reaches.trans ?_
    split
    · exact State.retractLate_reaches _ _
    · split
      · exact State.setTable_reaches _ _
      · exact State.setTable_reaches _ _
  · exact .refl s

theorem State.enlivenOne_reaches (m : Mark) : s.Reaches (s.enlivenOne m) := by
  simp only [State.enlivenOne]
  split
  · exact (s.setTable_reaches _).trans (State.tooLate_reaches _ _ _)
  · split
    · exact ((s.setTable_reaches _).trans (State.setMarkCounters_reaches _ _)).trans
        (State.notice_reaches _ _ _ _ _)
    · exact s.setTable_reaches _

/-- A fold reaches what each of its steps reaches. -/
theorem foldl_reaches {α : Type} {f : State → α → State} (h : ∀ (s : State) x, s.Reaches (f s x)) :
    ∀ (l : List α) (s : State), s.Reaches (l.foldl f s)
  | [], s => .refl s
  | x :: l, s => (h s x).trans (foldl_reaches h l (f s x))

theorem State.enlivenMarks_reaches : s.Reaches s.enlivenMarks :=
  foldl_reaches State.enlivenOne_reaches _ s

theorem State.marksHello_reaches (x : StationId) : s.Reaches (s.marksHello x) := by
  have h1 : s.Reaches (if x = s.startup.id then s else s.orphan x) := by
    split
    · exact .refl s
    · exact s.setMarks_reaches _
  simp only [State.marksHello]
  split
  · split
    · exact h1
    · exact (h1.trans (State.setMarks_reaches _ _)).trans (State.serve_reaches _)
  · exact .refl s

/-! ### Delay memory, output stage, ingest -/

theorem State.tryFree_reaches : s.Reaches s.tryFree := by
  refine .same ?_ ?_ ?_ <;> simp

theorem State.memoryFault_reaches (frame : FrameNo) (first page : Page) (kind : FaultKind) :
    s.Reaches (s.memoryFault frame first page kind) := by
  simp only [State.memoryFault]
  exact (((s.setIngest_reaches _).trans (State.setMemory_reaches _ _)).trans
    (State.notice_reaches _ _ _ _ _)).trans (State.tryFree_reaches _)

theorem State.startRead_reaches (of : ReadOf) (frame : FrameNo) (first : Page) (count length : Nat)
    (truncated : Bool) : s.Reaches (s.startRead of frame first count length truncated).1 := by
  simp only [State.startRead]
  split
  · exact (s.setMemory_reaches _).trans (State.setOutput_reaches _ _)
  · exact (s.setOutput_reaches _).trans (State.memoryFault_reaches _ _ _ _ _)

theorem State.finishStaging_reaches (g : Staging) (c : Carried) (late : Bool) :
    s.Reaches (s.finishStaging g c late) := .of_eq rfl rfl

theorem State.setStaging_reaches (g : Option Staging) : s.Reaches (s.setStaging g) := .of_eq rfl rfl

theorem State.substitute_reaches (g : Staging) : s.Reaches (s.substitute g) := by
  simp only [State.substitute]
  split
  · exact s.finishStaging_reaches _ _ _
  · split
    · rename_i x _ _ first count length truncated _
      have h := s.startRead_reaches .sourceFrame x first count length truncated
      rcases e : s.startRead .sourceFrame x first count length truncated with ⟨t, ok⟩
      rw [e] at h
      cases ok with
      | true => exact h.trans (State.setStaging_reaches _ _)
      | false => exact h.trans (State.finishStaging_reaches _ _ _ _)
    all_goals exact s.finishStaging_reaches _ _ _

theorem State.beginStaging_reaches (r : SelectionRecord) : s.Reaches (s.beginStaging r) := by
  simp only [State.beginStaging]
  split
  · exact s.substitute_reaches _
  · split
    · rename_i first count length truncated _
      have h := s.startRead_reaches .emitFrame r.emit first count length truncated
      rcases e : s.startRead .emitFrame r.emit first count length truncated with ⟨t, ok⟩
      rw [e] at h
      cases ok with
      | true => exact h.trans (State.setStaging_reaches _ _)
      | false => exact h.trans (State.substitute_reaches _ _)
    all_goals exact s.substitute_reaches _

theorem State.recordArrives_reaches (r : SelectionRecord) : s.Reaches (s.recordArrives r) := by
  have h : s.Reaches s.endLate := .same (by simp) (by simp) (by simp)
  exact (h.trans (State.setOutput_reaches _ _)).trans (State.beginStaging_reaches _ _)

theorem State.endRead_reaches (g : Staging) (r : ReadOp) (changed : Option Nat) :
    s.Reaches (s.endRead g r changed) := by
  have good : s.Reaches (s.readGood g r) := by
    simp only [State.readGood]
    refine State.Reaches.trans ?_ (State.tryFree_reaches _)
    cases r.of <;> exact .of_eq rfl rfl
  have failed : ∀ p, s.Reaches (s.readFailed g r p) := by
    intro p
    have h : s.Reaches ((s.listFailedPage p).memoryFault r.frame r.first p .checkFail) :=
      State.Reaches.trans (s.setMemory_reaches _) (State.memoryFault_reaches _ _ _ _ _)
    simp only [State.readFailed]
    split
    · exact ((h.trans (State.setOutput_reaches _ _)).trans (State.setStaging_reaches _ _)).trans
        (State.substitute_reaches _ _)
    · exact (h.trans (State.setOutput_reaches _ _)).trans (State.finishStaging_reaches _ _ _ _)
  simp only [State.endRead]
  repeat' split
  all_goals first
    | exact good
    | exact failed _
    | exact .refl s

theorem State.takeHeader_reaches (h : CellHeader) : s.Reaches (s.takeHeader h) := by
  have ht : ∀ n, s.Reaches (s.countTruncated n) := fun n =>
    .same (by simp) (by simp) (by simp)
  have hc : ∀ c, s.Reaches (s.setIngestCounters c) := fun _ => .of_eq rfl rfl
  simp only [State.takeHeader]
  split
  case h_6 =>
    refine (ht h.length).trans ?_
    simp only [State.ringFull]
    split
    · exact State.setIngest_reaches _ _
    · exact (State.setIngest_reaches _ _).trans (State.notice_reaches _ _ _ _ _)
  case h_7 =>
    exact (ht h.length).trans (.same (by simp) (by simp) (by simp))
  all_goals exact hc _

/-! ### Service states and sessions -/

theorem State.setService_reaches {x : Service} (h : x = .test ↔ s.line.service = .test) :
    s.Reaches (s.setService x) := s.setLine_reaches h

theorem State.leaveJoin_reaches : s.Reaches s.leaveJoin := .of_eq rfl rfl

theorem State.applySelection_reaches (h : FrameNo) (x : Selection) :
    s.Reaches (s.applySelection h x) := s.setLine_reaches Iff.rfl

theorem State.recordHistory_reaches (h : FrameNo) : s.Reaches (s.recordHistory h) :=
  s.setLine_reaches Iff.rfl

theorem State.delayTransition_reaches : s.Reaches s.delayTransition := by
  simp only [State.delayTransition]
  split <;> rename_i e
  · split
    · exact s.setService_reaches (by simp [e])
    · exact .refl s
  · split
    · exact s.setService_reaches (by simp [e])
    · exact .refl s
  · split
    · exact (s.setService_reaches (by simp [e])).trans (State.clearMarks_reaches _)
    · exact .refl s
  all_goals exact .refl s

theorem State.retireMarks_reaches : s.Reaches s.retireMarks := by
  refine .same ?_ ?_ ?_ <;> simp

theorem State.addSession_reaches (x : SessionEntry) : s.Reaches (s.addSession x) := by
  simp only [State.addSession]
  repeat' split
  · exact .refl s
  · exact s.sessionIgnored_reaches
  · exact s.setLine_reaches Iff.rfl

theorem State.receiveSession_reaches (kind : SessionKind) (a : FrameNo) (origin : StationId) :
    s.Reaches (s.receiveSession kind a origin) := by
  simp only [State.receiveSession]
  repeat' split
  all_goals first
    | exact .refl s
    | exact s.sessionIgnored_reaches
    | exact s.addSession_reaches _

theorem State.sessionLate_reaches (h : FrameNo) (x : SessionEntry) :
    s.Reaches (s.sessionLate h x) := by
  unfold State.sessionLate
  split
  · exact s.notice_reaches _ _ _ _
  · exact .refl s

theorem State.beginSession_reaches (h : s.line.service ≠ .test) : s.Reaches s.beginSession := by
  refine .of_eq rfl ?_
  have h1 : decide (s.beginSession.line.service ≠ .test) = decide (s.line.service ≠ .test) :=
    decide_eq_decide.mpr ⟨fun _ => h, fun _ => by
      show (Service.build ≠ .test); decide⟩
  unfold State.mayTransmit
  rw [h1]
  rfl

theorem State.takeSession_reaches (h : FrameNo) (x : SessionEntry) :
    s.Reaches (State.takeSession h s x) := by
  simp only [State.takeSession]
  split <;> rename_i e
  · split
    · exact (s.beginSession_reaches (by simp [e])).trans (State.sessionLate_reaches _ _ _)
    · exact s.sessionIgnored_reaches
  · refine State.Reaches.trans ?_ (State.sessionLate_reaches _ _ _)
    simp only [State.resumeSession]
    split <;> exact s.setService_reaches (by simp [e])
  · exact (s.setService_reaches (by simp [e])).trans (State.sessionLate_reaches _ _ _)
  · exact (s.setService_reaches (by simp [e])).trans (State.sessionLate_reaches _ _ _)
  · exact ((s.setService_reaches (by simp [e])).trans (State.leaveJoin_reaches _)).trans
      (State.sessionLate_reaches _ _ _)
  all_goals exact s.sessionIgnored_reaches

theorem State.takeSessions_reaches (h : FrameNo) : s.Reaches (s.takeSessions h) :=
  (s.setLine_reaches Iff.rfl).trans (foldl_reaches (State.takeSession_reaches · h) _ _)

theorem State.enterJoin_reaches (h : s.line.service ≠ .test) : s.Reaches s.enterJoin :=
  s.setLine_reaches (by simp [h])

theorem State.countNoReference_reaches : s.Reaches s.countNoReference := by
  simp only [State.countNoReference]
  split
  · exact .refl s
  · exact s.setLine_reaches Iff.rfl

theorem State.abandonJoin_reaches (h : FrameNo) (detail : BitVec 16) (hs : s.line.service ≠ .test) :
    s.Reaches (s.abandonJoin h detail) :=
  ((s.setService_reaches (by simp [hs])).trans (State.leaveJoin_reaches _)).trans
    (State.notice_reaches _ _ _ _ _)

theorem State.joinLimit_service {s : State} {h : FrameNo} {d : BitVec 16}
    (e : s.joinLimit h = some d) : s.line.service = .join := by
  unfold State.joinLimit at e
  split at e
  · assumption
  · cases e

theorem State.testJoinLimits_reaches (h : FrameNo) : s.Reaches (s.testJoinLimits h) := by
  unfold State.testJoinLimits
  split
  · exact .refl s
  · rename_i e
    exact s.abandonJoin_reaches h _ (by simp [State.joinLimit_service e])

/-! ### Peer monitor -/

theorem State.setRoster_reaches (r : List Peer) : s.Reaches (s.setRoster r) := .of_eq rfl rfl

theorem State.refreshReference_reaches : s.Reaches s.refreshReference :=
  .same (by simp) (by simp) (by simp)

theorem State.alignClear_reaches (p : Peer) (code : Byte) : s.Reaches (s.alignClear p code) := by
  unfold State.alignClear
  split
  · exact s.notice_reaches _ _ _ _
  · exact .refl s

theorem State.hear_reaches (src : StationId) : s.Reaches (s.hear src) := by
  simp only [State.hear]
  split
  · exact .refl s
  · refine State.Reaches.trans ?_ (State.refreshReference_reaches _)
    repeat' split
    · exact s.setRoster_reaches _
    · exact s.setRoster_reaches _
    · exact .refl s
    · exact (s.setRoster_reaches _).trans (State.alignClear_reaches _ _ _)

theorem State.freePeer_reaches (p : Peer) : s.Reaches (s.freePeer p) :=
  ((s.setRoster_reaches _).trans (State.alignClear_reaches _ _ _)).trans
    (State.refreshReference_reaches _)

theorem State.silence_reaches (id : StationId) : s.Reaches (s.silence id) :=
  (s.setRoster_reaches _).trans (State.refreshReference_reaches _)

theorem State.agePeer_reaches (h : FrameNo) (p : Peer) : s.Reaches (State.agePeer h s p) := by
  unfold State.agePeer
  repeat' split
  · exact s.freePeer_reaches _
  · exact s.silence_reaches _
  · exact .refl s

theorem State.ageRoster_reaches (h : FrameNo) : s.Reaches (s.ageRoster h) := by
  unfold State.ageRoster
  split
  · exact foldl_reaches (State.agePeer_reaches · h) _ _
  · exact .refl s

theorem State.setDigest_reaches (id : StationId) (digest : BitVec 16) :
    s.Reaches (s.setDigest id digest) := by
  simp only [State.setDigest]
  split
  · exact s.setRoster_reaches _
  · exact (s.setRoster_reaches _).trans (State.notice_reaches _ _ _ _ _)

theorem State.peersHello_reaches (x : StationId) (m : HelloMsg) : s.Reaches (s.peersHello x m) := by
  simp only [State.peersHello]
  repeat' split
  · exact .refl s
  · exact .refl s
  · exact (((s.setRoster_reaches _).trans (State.alignClear_reaches _ _ _)).trans
      (State.setDigest_reaches _ _ _)).trans (State.refreshReference_reaches _)

theorem State.judgeAlignment_reaches (id : StationId) (mask : Byte) (b : LastBeacon) :
    s.Reaches (s.judgeAlignment id mask b) := by
  simp only [State.judgeAlignment]
  split
  · split
    · exact (s.setRoster_reaches _).trans (State.setPeers_reaches _ _)
    · exact ((s.setRoster_reaches _).trans (State.setPeers_reaches _ _)).trans
        (State.notice_reaches _ _ _ _ _)
  · split
    · exact (s.setRoster_reaches _).trans (State.notice_reaches _ _ _ _ _)
    · exact s.setRoster_reaches _

theorem State.compareBeacon_reaches (id : StationId) (b : LastBeacon) (digest : BitVec 16) :
    s.Reaches (s.compareBeacon id b digest) := by
  simp only [State.compareBeacon]
  repeat' split
  · exact s.setPeers_reaches _
  · exact s.judgeAlignment_reaches _ _ _
  · exact .refl s

theorem State.autoJoin_reaches (b : LastBeacon) (digest : BitVec 16) :
    s.Reaches (s.autoJoin b digest) := by
  unfold State.autoJoin
  split
  · rename_i h
    refine (s.enterJoin_reaches ?_).trans (State.enlivenMarks_reaches _)
    simp only [State.autoJoins, Bool.and_eq_true, decide_eq_true_eq] at h
    simp [h.1.1.1.1]
  · exact .refl s

theorem sessionOfCode_delaying {code : Byte} {x : Service} (h : sessionOfCode code = some x) :
    x = .build ∨ x = .full ∨ x = .drain := by
  unfold sessionOfCode at h
  repeat' split at h
  all_goals cases h
  all_goals simp

theorem State.joinBeacon_reaches (id : StationId) (b : LastBeacon) :
    s.Reaches (s.joinBeacon id b) := by
  simp only [State.joinBeacon]
  split
  · rename_i hj
    refine s.refreshReference_reaches.trans ?_
    have hl : s.refreshReference.line.service = .join := by simp [hj]
    generalize s.refreshReference = t at hl ⊢
    split
    case isFalse => exact .refl t
    split
    case h_1 => exact t.setPeers_reaches _
    split
    case h_2 => exact .refl t
    split
    case isFalse => exact .refl t
    rename_i carried hc _
    refine State.Reaches.trans ?_ (State.notice_reaches _ _ _ _ _)
    refine State.Reaches.trans ?_ (State.leaveJoin_reaches _)
    refine State.Reaches.trans ?_ (State.setMarks_reaches _ _)
    refine t.setLine_reaches ?_
    simp only [hl, joinedState]
    rcases sessionOfCode_delaying hc with rfl | rfl | rfl <;> simp <;> split <;> simp
  · exact .refl s

theorem State.receiveBeacon_reaches (x : StationId) (m : BeaconMsg) :
    s.Reaches (s.receiveBeacon x m) := by
  simp only [State.receiveBeacon]
  split
  · exact .refl s
  · exact ((((s.setRoster_reaches _).trans (State.setDigest_reaches _ _ _)).trans
      (State.compareBeacon_reaches _ _ _ _)).trans (State.autoJoin_reaches _ _ _)).trans
      (State.joinBeacon_reaches _ _ _)

/-! ### Panel and reports -/

theorem State.setOpenKey_reaches (kind : MarkKind) (key : Option MarkKey) :
    s.Reaches (s.setOpenKey kind key) := by
  cases kind <;> exact .of_eq rfl rfl

/-- What follows an offer, in either case of its answer. -/
theorem State.afterOffer_reaches (msg : CueMsg) (target : StationId) (yes no : State → State)
    (hy : ∀ t : State, t.Reaches (yes t)) (hn : ∀ t : State, t.Reaches (no t)) :
    s.Reaches (match s.offer msg target with
      | (t, true) => yes t
      | (t, false) => no t) := by
  have h := s.offer_reaches msg target
  rcases e : s.offer msg target with ⟨t, ok⟩
  rw [e] at h
  cases ok with
  | true => exact h.trans (hy t)
  | false => exact h.trans (hn t)

theorem State.offerPress_reaches (kind : MarkKind) (start : FrameNo) (fin : Option FrameNo) :
    s.Reaches (s.offerPress kind start fin) :=
  s.afterOffer_reaches _ 0 (fun t => (t.setMarks _).setOpenKey kind _)
    (fun t => (t.setOpenKey kind none).pressRefused kind.lineCode 0x02 s.emitOrZero)
    (fun t => (t.setMarks_reaches _).trans (State.setOpenKey_reaches _ _ _))
    (fun t => (t.setOpenKey_reaches _ _).trans (State.pressRefused_reaches _ _ _ _))

theorem State.pressMark_reaches (kind : MarkKind) (h : FrameNo) : s.Reaches (s.pressMark kind h) := by
  simp only [State.pressMark]
  split
  · exact .refl s
  split
  · exact (s.setOpenKey_reaches _ _).trans (State.pressRefused_reaches _ _ _ _)
  split
  · exact ((s.setOpenKey_reaches _ _).trans (State.setMarks_reaches _ _)).trans
      (State.notice_reaches _ _ _ _ _)
  split
  · exact (s.setMarks_reaches _).trans (State.notice_reaches _ _ _ _ _)
  · exact s.offerPress_reaches _ _ _

theorem State.releaseMark_reaches (kind : MarkKind) (h : FrameNo) :
    s.Reaches (s.releaseMark kind h) := by
  simp only [State.releaseMark]
  split
  · exact .refl s
  · exact s.afterOffer_reaches _ 0 (fun t => t.setOpenKey kind none)
      (fun t => (t.setOpenKey kind none).pressRefused kind.lineCode 0x02 s.emitOrZero)
      (fun t => t.setOpenKey_reaches _ _)
      (fun t => (t.setOpenKey_reaches _ _).trans (State.pressRefused_reaches _ _ _ _))

theorem State.pressSession_reaches (kind : SessionKind) (h : FrameNo) :
    s.Reaches (s.pressSession kind h) := by
  simp only [State.pressSession]
  repeat' split
  · exact .refl s
  · rename_i e; have := s.offer_reaches (kind.msg (h + 3)) 0; rw [e] at this; exact this
  · rename_i e; have := s.offer_reaches (kind.msg (h + 3)) 0; rw [e] at this
    exact this.trans (State.pressRefused_reaches _ _ _ _)
  · exact s.pressRefused_reaches _ _ _

theorem State.onEvent_reaches (found : Bool) (work : State → State)
    (h : ∀ t : State, t.Reaches (work t)) : s.Reaches (s.onEvent found work) := by
  unfold State.onEvent
  split
  · exact h s
  · exact .refl s

theorem State.samplePanel_reaches (h : FrameNo) (now : PanelLevels) :
    s.Reaches (s.samplePanel h now) := by
  simp only [State.samplePanel]
  split
  · exact s.setPanel_reaches _
  · exact (((((((s.setPanel_reaches _).trans
      (State.onEvent_reaches _ _ _ (·.releaseMark_reaches _ _))).trans
      (State.onEvent_reaches _ _ _ (·.releaseMark_reaches _ _))).trans
      (State.onEvent_reaches _ _ _ (·.pressMark_reaches _ _))).trans
      (State.onEvent_reaches _ _ _ (·.pressMark_reaches _ _))).trans
      (State.onEvent_reaches _ _ _ (·.pressMark_reaches _ _))).trans
      (State.onEvent_reaches _ _ _ (·.pressSession_reaches _ _))).trans
      (State.onEvent_reaches _ _ _ (·.pressSession_reaches _ _))

theorem State.answerQuery_reaches (src : StationId) (group : BitVec 4) (part : Bool) :
    s.Reaches (s.answerQuery src group part) := s.offer_reaches _ _

/-! ### Ticks -/

theorem State.announce_reaches : s.Reaches s.announce := by
  unfold State.announce
  split
  · exact .refl s
  · exact s.offer_reaches _ _

theorem State.resendHello_reaches : s.Reaches s.resendHello := by
  unfold State.resendHello
  split
  · exact s.afterOffer_reaches _ 0 (fun t => t.setBus { t.bus with helloOwed := false }) (fun t => t)
      (fun t => .move (.owed _ _)) (fun t => .refl t)
  · exact .refl s

theorem State.beaconTick_reaches (h : FrameNo) : s.Reaches (s.beaconTick h) := by
  unfold State.beaconTick
  split
  · exact (s.offer_reaches _ _).trans (State.resendHello_reaches _)
  · exact .refl s

theorem State.tickLine_reaches (h : FrameNo) : s.Reaches (s.tickLine h) := by
  simp only [State.tickLine]
  have hj : ∀ t : State, t.Reaches (t.joinStage h) := by
    intro t
    unfold State.joinStage
    split
    · exact t.countNoReference_reaches.trans (State.testJoinLimits_reaches _ _)
    · exact .refl t
  have h0 : s.Reaches (s.handEstimate h) := .same (by simp) (by simp) (by simp)
  have h1 : ∀ (t : State) (old : Option FrameNo), t.Reaches (t.freeAtTick old) :=
    fun t old => .same (by simp) (by simp) (by simp)
  refine State.Reaches.trans ?_ (hj _)
  refine State.Reaches.trans ?_ (State.recordArrives_reaches _ _)
  refine State.Reaches.trans ?_ (State.setPanel_reaches _ _)
  refine State.Reaches.trans ?_ (State.beaconTick_reaches _ _)
  refine State.Reaches.trans ?_ (State.recordHistory_reaches _ _)
  refine State.Reaches.trans ?_ (State.retireMarks_reaches _)
  refine State.Reaches.trans ?_ (State.delayTransition_reaches _)
  refine State.Reaches.trans ?_ (h1 _ _)
  exact h0.trans (State.applySelection_reaches _ _ _)

theorem State.tickState_reaches (h : FrameNo) : s.Reaches (s.tickState h) := by
  unfold State.tickState
  split
  · exact s.setPanel_reaches _
  · refine State.Reaches.trans ?_ (State.beaconTick_reaches _ _)
    exact .same (by simp) (by simp) (by simp)
  all_goals exact s.tickLine_reaches h

theorem State.tickWork_reaches (h : FrameNo) (levels : PanelLevels) :
    s.Reaches (s.tickWork h levels) :=
  ((((s.takeSessions_reaches h).trans (State.tickState_reaches _ _)).trans
    (State.samplePanel_reaches _ _ _)).trans (State.ageRoster_reaches _ _)).trans
    (State.setPanel_reaches _ _)

theorem State.tick_reaches (h : FrameNo) (levels : PanelLevels) : s.Reaches (s.tick h levels) := by
  refine State.Reaches.trans ?_ (State.tickWork_reaches _ _ _)
  exact .same (by simp) (by simp) (by simp)

/-- A discontinuity's own part, for a station in LINEUP or a delaying state. -/
theorem State.clearAtDiscontinuity_reaches (h : s.line.service ≠ .test) :
    s.Reaches s.clearAtDiscontinuity := by
  simp only [State.clearAtDiscontinuity]
  refine State.Reaches.trans ?_ (State.leaveJoin_reaches _)
  refine State.Reaches.trans ?_ (State.clearMarks_reaches _)
  have h1 : s.Reaches (s.setMemory { s.memory with reading := none }).endLate :=
    .same (by simp) (by simp) (by simp)
  refine (((h1.trans (State.setIngest_reaches _ _)).trans (State.setMemory_reaches _ _)).trans
    (State.Reaches.move (.counted _ _))).trans (State.setLine_reaches _ ?_)
  simp [h]

theorem State.discontinuity_reaches (n h : FrameNo) (levels : PanelLevels) :
    s.Reaches (s.discontinuity n h levels) := by
  simp only [State.discontinuity]
  refine State.Reaches.trans ?_ (State.tickWork_reaches _ _ _)
  refine (s.notice_reaches 0x13 (some h) s.emitOrZero ((h - (n + 1)).setWidth 16)).trans ?_
  generalize s.notice 0x13 (some h) s.emitOrZero ((h - (n + 1)).setWidth 16) = t
  have h1 : ∀ c, t.Reaches ((t.setClock c).rebaseRoster h) := fun c =>
    .same (by simp) (by simp) (by simp)
  split
  · rename_i hs
    refine (h1 _).trans (State.clearAtDiscontinuity_reaches _ ?_)
    intro e
    rw [e] at hs
    exact absurd hs (by decide)
  · exact h1 _

end Sys2Proof.Machine
end

