-- ==== Sys2Proof/Laws/Tables.lean ====
section
/-! SUPPORT. Sparse tables: a read after a write, and the canonical form, which every write keeps; the
cell directory and the pages of the delay memory, which are such tables. -/

namespace Sys2Proof.Machine

variable {α : Type}

/-! ### Reads after writes -/

theorem sparseGet_set_same : ∀ (t : Sparse α) (i : Nat) (x : α), sparseGet (sparseSet t i x) i = some x
  | [], i, x => by simp [sparseSet, sparseGet]
  | (k, v) :: rest, i, x => by
    simp only [sparseSet]
    split
    · simp [sparseGet]
    · split
      · simp [sparseGet]
      · rename_i h; simp [sparseGet, Ne.symm h, sparseGet_set_same rest i x]

theorem sparseGet_set_other : ∀ (t : Sparse α) (i j : Nat) (x : α), j ≠ i →
    sparseGet (sparseSet t i x) j = sparseGet t j
  | [], i, j, x, h => by simp [sparseSet, sparseGet, Ne.symm h]
  | (k, v) :: rest, i, j, x, h => by
    simp only [sparseSet]
    split
    · simp [sparseGet, Ne.symm h]
    · split
      · rename_i e; subst e; simp [sparseGet, Ne.symm h]
      · simp [sparseGet, sparseGet_set_other rest i j x h]

theorem sparseGet_erase_other : ∀ (t : Sparse α) (i j : Nat), j ≠ i →
    sparseGet (sparseErase t i) j = sparseGet t j
  | [], _, _, _ => rfl
  | (k, v) :: rest, i, j, h => by
    simp only [sparseErase]
    split
    · rename_i e; subst e; simp [sparseGet, Ne.symm h]
    · simp [sparseGet, sparseGet_erase_other rest i j h]

/-! ### Rising keys -/

theorem sparseRising_iff : ∀ (t : Sparse α), sparseRising t = true ↔ (t.map (·.1)).Pairwise (· < ·)
  | [] => by simp [sparseRising]
  | [_] => by simp [sparseRising]
  | (k, v) :: (k', v') :: rest => by
    have ih := sparseRising_iff ((k', v') :: rest)
    simp only [sparseRising, Bool.and_eq_true, decide_eq_true_eq, ih, List.map_cons,
      List.pairwise_cons, List.mem_cons]
    constructor
    · rintro ⟨h, h1, h2⟩
      refine ⟨?_, h1, h2⟩
      rintro b (rfl | hb)
      · exact h
      · exact Nat.lt_trans h (h1 b hb)
    · rintro ⟨h, h1, h2⟩
      exact ⟨h k' (Or.inl rfl), h1, h2⟩

theorem mem_sparseSet : ∀ {t : Sparse α} {i : Nat} {x : α} {e : Nat × α},
    e ∈ sparseSet t i x → e = (i, x) ∨ e ∈ t
  | [], _, _, _, h => by simpa [sparseSet] using h
  | (k, v) :: rest, i, x, e, h => by
    simp only [sparseSet] at h
    split at h
    · simpa using h
    · split at h
      · simp only [List.mem_cons] at h ⊢
        exact h.imp_right Or.inr
      · simp only [List.mem_cons] at h ⊢
        rcases h with h | h
        · exact Or.inr (Or.inl h)
        · exact (mem_sparseSet h).imp_right Or.inr

theorem mem_sparseErase : ∀ {t : Sparse α} {i : Nat} {e : Nat × α}, e ∈ sparseErase t i → e ∈ t
  | [], _, _, h => h
  | (k, v) :: rest, i, e, h => by
    simp only [sparseErase] at h
    split at h
    · exact List.mem_cons_of_mem _ h
    · simp only [List.mem_cons] at h ⊢
      rcases h with h | h
      · exact Or.inl h
      · exact Or.inr (mem_sparseErase h)

theorem sparseSet_rising {t : Sparse α} {i : Nat} {x : α} (h : sparseRising t = true) :
    sparseRising (sparseSet t i x) = true := by
  rw [sparseRising_iff] at h ⊢
  induction t with
  | nil => simp [sparseSet]
  | cons e rest ih =>
    obtain ⟨k, v⟩ := e
    simp only [List.map_cons, List.pairwise_cons, List.mem_map] at h
    simp only [sparseSet]
    split
    · rename_i hlt
      simp only [List.map_cons, List.pairwise_cons, List.mem_cons, List.mem_map]
      refine ⟨?_, ?_, h.2⟩
      · rintro b (rfl | hb)
        · exact hlt
        · exact Nat.lt_trans hlt (h.1 b hb)
      · exact h.1
    · split
      · rename_i e; subst e
        simpa using h
      · simp only [List.map_cons, List.pairwise_cons, List.mem_map]
        refine ⟨?_, ih h.2⟩
        rintro b ⟨e, he, rfl⟩
        rcases mem_sparseSet he with rfl | he
        · simp only; omega
        · exact h.1 _ ⟨e, he, rfl⟩

theorem sparseErase_rising {t : Sparse α} {i : Nat} (h : sparseRising t = true) :
    sparseRising (sparseErase t i) = true := by
  rw [sparseRising_iff] at h ⊢
  have hs : (sparseErase t i).Sublist t := by
    clear h
    induction t with
    | nil => exact List.Sublist.refl _
    | cons e rest ih =>
      obtain ⟨k, v⟩ := e
      simp only [sparseErase]
      split
      · exact List.sublist_cons_self _ _
      · exact ih.cons_cons _
  exact h.sublist (hs.map _)

theorem sparseGet_erase_same {t : Sparse α} {i : Nat} (h : sparseRising t = true) :
    sparseGet (sparseErase t i) i = none := by
  rw [sparseRising_iff] at h
  have none_of : ∀ (t : Sparse α), (∀ e ∈ t, i < e.1) → sparseGet t i = none := by
    intro t
    induction t with
    | nil => intro _; rfl
    | cons e rest ih =>
      intro h
      have := h e (List.mem_cons_self ..)
      obtain ⟨k, v⟩ := e
      simp only [sparseGet]
      rw [if_neg (by simp only at this; omega)]
      exact ih fun e he => h e (List.mem_cons_of_mem _ he)
  induction t with
  | nil => rfl
  | cons e rest ih =>
    obtain ⟨k, v⟩ := e
    simp only [List.map_cons, List.pairwise_cons, List.mem_map] at h
    simp only [sparseErase]
    split
    · rename_i e; subst e
      exact none_of rest fun e he => h.1 _ ⟨e, he, rfl⟩
    · rename_i e
      simp only [sparseGet, if_neg e]
      exact ih h.2

/-! ### The cell directory -/

theorem dirIndex_lt (x : FrameNo) : dirIndex x < Config.directoryEntries :=
  Nat.mod_lt _ (by decide)

theorem dirGet_set_same {d : Sparse DirEntry} {i : Nat} {e : DirEntry} (h : e.state ≠ .empty) :
    dirGet (dirSet d i e) i = e := by
  simp [dirGet, dirSet, h, sparseGet_set_same]

theorem dirGet_set_other {d : Sparse DirEntry} {i j : Nat} {e : DirEntry} (h : j ≠ i) :
    dirGet (dirSet d i e) j = dirGet d j := by
  unfold dirGet dirSet
  split
  · rw [sparseGet_erase_other d i j h]
  · rw [sparseGet_set_other d i j e h]

theorem dirSet_wf {d : Sparse DirEntry} {i : Nat} {e : DirEntry} (h : directoryWf d = true)
    (hi : i < Config.directoryEntries) : directoryWf (dirSet d i e) = true := by
  simp only [directoryWf, Bool.and_eq_true, List.all_eq_true, decide_eq_true_eq] at h ⊢
  unfold dirSet
  split
  · exact ⟨sparseErase_rising h.1, fun x hx => h.2 x (mem_sparseErase hx)⟩
  · rename_i hne
    refine ⟨sparseSet_rising h.1, fun x hx => ?_⟩
    rcases mem_sparseSet hx with rfl | hx
    · exact ⟨hi, hne⟩
    · exact h.2 x hx

theorem changeEntry_wf {d : Sparse DirEntry} {x : FrameNo} {p : Page} {st : EntryState}
    (h : directoryWf d = true) : directoryWf (changeEntry d x p st) = true := by
  unfold changeEntry
  split
  · exact dirSet_wf h (dirIndex_lt x)
  · exact h

theorem completeEntry_wf {d : Sparse DirEntry} {x : FrameNo} {p : Page} (h : directoryWf d = true) :
    directoryWf (completeEntry d x p) = true := by
  unfold completeEntry
  split
  · exact changeEntry_wf h
  · exact h

theorem shortEntry_wf {d : Sparse DirEntry} {x : FrameNo} {p : Page} (h : directoryWf d = true) :
    directoryWf (shortEntry d x p) = true := by
  unfold shortEntry
  split
  · exact dirSet_wf h (dirIndex_lt x)
  · exact h

/-! ### The pages -/

theorem storePage_wf {t : Sparse PageImage} {p : Page} {w : PageWrite} (h : pagesWf t = true) :
    pagesWf (storePage t p w) = true := by
  simp only [pagesWf, storePage, Bool.and_eq_true, List.all_eq_true, decide_eq_true_eq] at h ⊢
  refine ⟨sparseSet_rising h.1, fun e he => ?_⟩
  rcases mem_sparseSet he with rfl | he
  · exact p.isLt
  · exact h.2 e he

theorem erasePage_wf {t : Sparse PageImage} {i : Nat} (h : pagesWf t = true) :
    pagesWf (sparseErase t i) = true := by
  simp only [pagesWf, Bool.and_eq_true, List.all_eq_true, decide_eq_true_eq] at h ⊢
  exact ⟨sparseErase_rising h.1, fun e he => h.2 e (mem_sparseErase he)⟩

theorem cutWrite_wf {m : DelayMemory} {q : List PageWrite} (h : pagesWf m.pages = true) :
    pagesWf (cutWrite m q) = true := by
  unfold cutWrite
  repeat' split
  · exact h
  · exact erasePage_wf h
  · exact h

/-! ### The canonical form of both tables, kept by every operation that writes one -/

theorem memoryWf_iff {s : State} :
    s.memoryWf = true ↔ directoryWf s.ingest.directory = true ∧ pagesWf s.memory.pages = true := by
  simp [State.memoryWf]

theorem memoryWf_reset : State.reset.memoryWf = true := by decide

theorem memoryWf_of_eq {s t : State} (hi : t.ingest = s.ingest) (hm : t.memory = s.memory)
    (h : s.memoryWf = true) : t.memoryWf = true := by
  simpa [State.memoryWf, hi, hm] using h

theorem State.freeFront_memoryWf {s : State} (a : Allocation) (rest : List Allocation)
    (h : s.memoryWf = true) : (s.freeFront a rest).memoryWf = true := by
  rw [memoryWf_iff] at h ⊢
  exact ⟨changeEntry_wf h.1, h.2⟩

theorem freeFrom_memoryWf : ∀ (l : List Allocation) {s : State}, s.memoryWf = true →
    (freeFrom l s).memoryWf = true
  | [], _, h => h
  | a :: rest, s, h => by
    unfold freeFrom
    split
    · exact h
    · exact freeFrom_memoryWf rest (s.freeFront_memoryWf a rest h)

theorem State.tryFree_memoryWf {s : State} (h : s.memoryWf = true) : s.tryFree.memoryWf = true :=
  freeFrom_memoryWf _ h

theorem State.memoryFault_memoryWf {s : State} (frame : FrameNo) (first page : Page)
    (kind : FaultKind) (h : s.memoryWf = true) :
    (s.memoryFault frame first page kind).memoryWf = true := by
  unfold State.memoryFault
  apply State.tryFree_memoryWf
  rw [memoryWf_iff] at h ⊢
  simpa using ⟨changeEntry_wf h.1, h.2⟩

theorem State.listFailedPage_memoryWf {s : State} (p : Page) (h : s.memoryWf = true) :
    (s.listFailedPage p).memoryWf = true := by
  rw [memoryWf_iff] at h ⊢
  exact ⟨h.1, erasePage_wf h.2⟩

theorem State.startRead_memoryWf {s : State} (of : ReadOf) (frame : FrameNo) (first : Page)
    (count length : Nat) (truncated : Bool) (h : s.memoryWf = true) :
    (s.startRead of frame first count length truncated).1.memoryWf = true := by
  unfold State.startRead
  split
  · exact h
  · exact State.memoryFault_memoryWf (s := s.setOutput _) _ _ _ _ h

theorem State.finishStaging_memoryWf {s : State} (g : Staging) (c : Carried) (late : Bool)
    (h : s.memoryWf = true) : (s.finishStaging g c late).memoryWf = true := h

theorem State.setStaging_memoryWf {s : State} (g : Option Staging) (h : s.memoryWf = true) :
    (s.setStaging g).memoryWf = true := h

theorem State.substitute_memoryWf {s : State} (g : Staging) (h : s.memoryWf = true) :
    (s.substitute g).memoryWf = true := by
  unfold State.substitute
  repeat' split
  all_goals first
    | exact h
    | (rename_i e; have := congrArg Prod.fst e; simp only at this; subst this
       exact s.startRead_memoryWf _ _ _ _ _ _ h)

theorem State.beginStaging_memoryWf {s : State} (r : SelectionRecord) (h : s.memoryWf = true) :
    (s.beginStaging r).memoryWf = true := by
  simp only [State.beginStaging]
  repeat' split
  all_goals first
    | exact State.substitute_memoryWf _ h
    | (rename_i e; have := congrArg Prod.fst e; simp only at this; subst this
       first
         | exact s.startRead_memoryWf _ _ _ _ _ _ h
         | exact State.substitute_memoryWf _ (s.startRead_memoryWf _ _ _ _ _ _ h))

theorem State.endLate_memoryWf {s : State} (h : s.memoryWf = true) : s.endLate.memoryWf = true := by
  unfold State.endLate State.abandonRead
  repeat' split
  · exact h
  · exact h
  · exact State.tryFree_memoryWf (s := s.setMemory _) h

theorem State.recordArrives_memoryWf {s : State} (r : SelectionRecord) (h : s.memoryWf = true) :
    (s.recordArrives r).memoryWf = true :=
  State.beginStaging_memoryWf (s := s.endLate.setOutput _) r (State.endLate_memoryWf h)

theorem State.endRead_memoryWf {s : State} (g : Staging) (r : ReadOp) (changed : Option Nat)
    (h : s.memoryWf = true) : (s.endRead g r changed).memoryWf = true := by
  have good : (s.readGood g r).memoryWf = true := by
    unfold State.readGood
    apply State.tryFree_memoryWf
    cases r.of <;> exact h
  have failed : ∀ p, (s.readFailed g r p).memoryWf = true := by
    intro p
    have h1 := State.memoryFault_memoryWf r.frame r.first p .checkFail (s.listFailedPage_memoryWf p h)
    simp only [State.readFailed]
    split
    · exact State.substitute_memoryWf _ h1
    · exact h1
  simp only [State.endRead]
  repeat' split
  all_goals first
    | exact good
    | exact failed _
    | exact h

theorem State.acceptCell_directory (s : State) (x : CellHeader) :
    (s.acceptCell x).ingest.directory = dirSet s.ingest.directory (dirIndex x.frame)
      (acceptedEntry x.frame s.memory.grantFirst (pageCount (storedLength s.cfg.cellPages x.length))
        (storedLength s.cfg.cellPages x.length) (isTruncated s.cfg.cellPages x.length)) := by
  simp only [State.acceptCell, State.setIngest_ingest]

theorem State.acceptCell_pages (s : State) (x : CellHeader) :
    (s.acceptCell x).memory.pages = s.memory.pages := by
  rw [State.acceptCell, State.setIngest_memory, State.setMemory_memory, DelayMemory.grant]

theorem State.acceptCell_memoryWf {s : State} (x : CellHeader) (h : s.memoryWf = true) :
    (s.acceptCell x).memoryWf = true := by
  rw [memoryWf_iff] at h ⊢
  rw [State.acceptCell_directory, State.acceptCell_pages]
  exact ⟨dirSet_wf h.1 (dirIndex_lt _), h.2⟩

theorem State.endCurrent_memoryWf {s : State} (h : s.memoryWf = true) :
    s.endCurrent.memoryWf = true := by
  unfold State.endCurrent
  repeat' split
  · exact h
  · rw [memoryWf_iff] at h ⊢; exact ⟨shortEntry_wf h.1, h.2⟩
  · exact h

theorem State.takeHeader_memoryWf {s : State} (x : CellHeader) (h : s.memoryWf = true) :
    (s.takeHeader x).memoryWf = true := by
  have ht : ∀ n, (s.countTruncated n).memoryWf = true := by
    intro n; unfold State.countTruncated; split <;> exact h
  have hc : ∀ c, (s.setIngestCounters c).memoryWf = true := fun _ => h
  simp only [State.takeHeader]
  split
  case h_6 => simp only [State.ringFull]; split <;> exact ht _
  case h_7 => exact State.acceptCell_memoryWf x (ht _)
  all_goals exact hc _

theorem State.completeWrite_memoryWf {s : State} (w : PageWrite) (rest : List PageWrite)
    (h : s.memoryWf = true) : (s.completeWrite w rest).memoryWf = true := by
  rw [memoryWf_iff] at h
  have hp : pagesWf (match pageAt s.memory.bad w.first w.position w.position with
      | some p => storePage s.memory.pages p w
      | none => s.memory.pages) = true := by
    split
    · exact storePage_wf h.2
    · exact h.2
  simp only [State.completeWrite]
  split
  · apply State.tryFree_memoryWf
    rw [memoryWf_iff]
    exact ⟨completeEntry_wf h.1, hp⟩
  · rw [memoryWf_iff]
    exact ⟨h.1, hp⟩

end Sys2Proof.Machine
end

