-- ==== Sys2Proof/Tests/Slice0.lean ====
section
/-! SUPPORT. Tests: the ill-formed commands, the spec's worked values, two small steps at most for a
command, and a state and operands that meet the hypotheses of each statement. -/

namespace Sys2Proof.Tests

open Sys2Proof.Machine

-- One theorem at a time: each waits for the kernel, and a thread for each takes too much memory.
set_option Elab.async false

/-! ### Helpers -/

/-- What one command leaves, read by a function; none where it gives no next state. -/
def after {α : Type} (c : Instr) (s : State) (f : State → α) : Option α :=
  match exec c s with
  | .next t => some (f t)
  | .fault _ => none
  | .refused _ => none

/-- No panel line active. -/
def quietPanel : PanelLevels := { dump := false, cover := false, lock := false, start := false, stop := false }

/-- Station 3 with start-up done on the default configuration, LOCKED at a tick, in a service state, with
an emit frame. -/
def station (sv : Service) (e h : FrameNo) : State :=
  { State.reset with
    clock := { tick := some h, ref := .locked, holdover := false, absence := some 60000, own := none }
    line := { DelayLine.reset with service := sv, emit := some e, delay := h - e }
    bus := { BusController.reset with tracking := .tracking }
    startup := { State.reset.startup with
      id := 3, config := some defaultSettings, derived := some (derive defaultSettings 0)
      testResult := false, phase := .done } }

/-- The same with intervals and target of the worked examples of sections 2.7 and 2.8. -/
def smallStation (sv : Service) (e h : FrameNo) : State :=
  let s := station sv e h
  let c := { defaultSettings with target := 8, build := 4, drain := 4 }
  s.setStartup { s.startup with config := some c, derived := some (derive c 0) }

/-- In HOLDOVER instead of LOCKED. -/
def inHoldover (s : State) : State :=
  s.setClock { s.clock with ref := .holdover, holdover := true, absence := none, own := some 40000 }

/-- With a frame of station 2 read good. -/
def readGoodOf (s : State) (m : CueMsg) (target : StationId) : State :=
  s.setBus { s.bus with activity := .judged (lineFrame 2 m target) true false }

/-- With one frame queued, and it on the line. -/
def sendingOf (s : State) (m : CueMsg) (attempts : Nat) : State :=
  let f : TxFrame := { msg := m, target := 0, stamp := 1 }
  s.setBus { s.bus with queue := [f], attempts := attempts, activity := .sending (s.startedFrame f) }

/-- A NOTICE to send. -/
def someNotice : CueMsg := .notice { code := 0x12, tick := 7, frame := 0, detail := 0 }

/-- A roster entry of station 2, last heard at a tick. -/
def peerTwo (heard : FrameNo) : Peer := { newPeer 2 (some heard) with alignFault := true }

/-- With a roster. -/
def knowing (s : State) (p : Peer) : State := s.setRoster [p]

/-- The header of a cell of 5 bytes for frame 100 and lane 0, its check formed. -/
def goodHeader : List Byte :=
  let b : List Byte := bytes32 100 ++ [0, 0] ++ bytes32 5
  b ++ bytes16 (crc (bitsOfBytes b))

/-- The mark table of section 2.7. -/
def lockedDump : List Mark :=
  [{ key := { origin := 3, seq := 17, orphan := false }, kind := .dump, lanes := 0xFF, start := 93,
     fin := .closed 97, trimmed := false, appliedAt := some 90 },
   { key := { origin := 5, seq := 2, orphan := false }, kind := .lock, lanes := 0xFF, start := 95,
     fin := .closed 96, trimmed := false, appliedAt := some 91 }]

/-! ### Ill-formed commands -/

theorem test_wf_listed_order : Instr.wf (.resetAsserted [2, 1]) = false := by decide
theorem test_wf_listed_length :
    Instr.wf (.resetAsserted ((List.range 33).map (BitVec.ofNat 16))) = false := by decide
theorem test_wf_record_length : Instr.wf (.configReadComplete (List.replicate 47 0)) = false := by decide
theorem test_wf_failing_twice : Instr.wf (.memoryTestComplete [1, 1]) = false := by decide
theorem test_wf_failing_length :
    Instr.wf (.memoryTestComplete ((List.range 34).map (BitVec.ofNat 16))) = false := by decide
theorem test_wf_header_length : Instr.wf (.cellHeaderArrival (List.replicate 11 0)) = false := by decide
theorem test_wf_position_zero : Instr.wf (.checkFail 0) = false := by decide
theorem test_wf_position_high : Instr.wf (.checkFail 65) = false := by decide
theorem test_wf_payload_length :
    Instr.wf (.frameTest { lineFrame 2 .realign 3 with payload := [0] }) = false := by decide
theorem test_wf_slot_listed : Instr.wf (.objectionSlotEnd false 0 [4, 4]) = false := by decide
theorem test_wf_good_header : Instr.wf (.cellHeaderArrival goodHeader) = true := by decide

/-! ### Values that the spec works out -/

/-- R192, one bit by hand: a 0 bit adds the generator, a 1 bit does not. -/
theorem test_crc_one_bit : crc [false] = 0xEFDF ∧ crc [true] = 0xFFFE := by decide

/-- The published check value of this code over the characters 123456789. -/
theorem test_crc_check_value :
    crc (bitsOfBytes [0x31, 0x32, 0x33, 0x34, 0x35, 0x36, 0x37, 0x38, 0x39]) = 0x29B1 := by
  decide +kernel

/-- R184: the digest of the defaults is 1439H. -/
theorem test_default_digest : (derive defaultSettings 0).digest = 0x1439 := by decide

/-- Section 2.9: T 1500, 64 pages a cell, G 4, L 250 and 5 bad pages give T_eff 1020 and L_eff 250. -/
theorem test_target_cut_by_memory :
    let d := derive { defaultSettings with target := 1500, cellPages := 64 } 5
    (d.target, d.guard, d.dumpLength) = (1020, 4, 250) := by decide

/-- R1: the order wraps, and 2^31 apart neither is before the other. -/
theorem test_order_wraps :
    before 0xFFFFFFFF 0 = true ∧ before 0 0x80000000 = false ∧ before 0x80000000 0 = false := by decide

/-- Section 2.7: the LOCK splits the DUMP. -/
theorem test_next_stops_at_lock : nextFrame lockedDump 92 = 95 := by decide
theorem test_next_of_unlocked_dump : nextFrame (lockedDump.take 1) 95 = 97 := by decide

/-- Section 11.9: T 6, G 10 and L 40 settle at 6, 5 and 1, and the digest is 11CDH; with a lookback of
30 it is 10F1H. -/
theorem test_clamped_record :
    let c := { defaultSettings with rateCode := 5, target := 6, guard := 10, dumpLength := 40, lookback := 250 }
    let d := derive c 0
    (d.target, d.guard, d.dumpLength, d.digest) = (6, 5, 1, 0x11CD)
      ∧ (derive { c with lookback := 30 } 0).digest = 0x10F1 := by decide

/-! ### One step -/

/-- Section 2.7, tick 101: two frames passed, E 95, D 6, BUILD. -/
theorem test_pulse_dump_step :
    let s := smallStation .full 92 100
    let s := (s.setMarks { s.marks with table := lockedDump }).setLine { s.line with removed := 40 }
    after (.referencePulse 101 quietPanel) s
        (fun t => (t.line.emit, t.line.delay, t.line.removed, t.line.service, t.marks.table.length))
      = some (some 95, 6, 42, .build, 1) := by decide +kernel

/-- Section 2.7, tick 112: a hold brings D to the target, FULL. -/
theorem test_pulse_hold_to_full :
    after (.referencePulse 112 quietPanel) (smallStation .build 104 111)
        (fun t => (t.line.emit, t.line.delay, t.line.service)) = some (some 104, 8, .full) := by
  decide +kernel

/-- Section 2.8, tick 208, here an own tick: frame 200 is dropped. -/
theorem test_own_tick_drop :
    after (.ownTickTimerExpiry quietPanel) (inHoldover (smallStation .drain 199 207))
        (fun t => (t.line.emit, t.line.delay, t.line.removed, t.line.service))
      = some (some 201, 7, 0, .drain) := by decide +kernel

/-- Section 2.8, tick 232, here by the absence timer: the drop to live. -/
theorem test_absence_drop_to_live :
    after (.absenceTimerExpiry quietPanel) (smallStation .drain 229 231)
        (fun t => (t.line.emit, t.line.service, t.clock.ref)) = some (some 231, .lineup, .holdover) := by
  decide +kernel

/-- R177: power with the RESET line asserted holds the station. -/
theorem test_power_applied : after (.powerApplied true 9) (station .full 100 700)
    (fun t => (t.startup.phase, t.line.service, t.startup.id)) = some (.held, .test, 3) := by decide

/-- R178: the restarts count stays at 255. -/
theorem test_reset_asserted :
    let s := station .full 100 700
    let s := s.setStartup { s.startup with cause := { s.startup.cause with restarts := 255 } }
    after (.resetAsserted []) s (fun t => (t.startup.cause.last, t.startup.cause.restarts))
      = some (.pin, 255) := by decide

/-- R179: the straps are sampled as the sequence begins. -/
theorem test_reset_released :
    let s := State.reset.setStartup { State.reset.startup with phase := .held }
    after (.resetReleased 9) s (fun t => (t.startup.phase, t.startup.id)) = some (.reading, 9) := by
  decide

/-- R181, R185: a record without its marker gives the defaults, and after POWER the test starts. -/
theorem test_config_read : after (.configReadComplete (List.replicate 48 0)) State.reset
    (fun t => (t.startup.phase, t.startup.flags.default, t.cfg.target))
      = some (.testing, true, 600) := by decide

/-- Section 11.8: three failing pages, success, LINEUP. -/
theorem test_memory_test :
    let s := State.reset.setStartup
      { State.reset.startup with phase := .testing, config := some defaultSettings }
    after (.memoryTestComplete [8000, 30500, 61000]) s
        (fun t => (t.line.service, t.startup.testResult, t.memory.free, t.eff.target))
      = some (.lineup, false, 65533, 600) := by decide +kernel

/-- R76: with neither limit reached the join goes on. -/
theorem test_join_limit_not_reached :
    let s := station .join 100 120
    let s := s.setLine { s.line with joining := some { entryTick := 110, noReference := 0 } }
    after .joinLimit s (·.line.service) = some .join := by decide

/-- R150: 75 ticks unheard at B 25 is SILENT, 74 is not. -/
theorem test_roster_silent :
    after (.rosterSilent 2) (knowing (station .full 100 700) (peerTwo 625))
        (fun t => t.peers.roster.map (·.silent)) = some [true]
      ∧ after (.rosterSilent 2) (knowing (station .full 100 700) (peerTwo 626))
        (fun t => t.peers.roster.map (·.silent)) = some [false] := by decide

/-- R150: 400 ticks unheard at B 25 frees the entry, with its notice. -/
theorem test_roster_freed :
    after (.rosterFreed 2) (knowing (station .full 100 700) (peerTwo 300))
        (fun t => (t.peers.roster.length, t.bus.queue.length)) = some (0, 1) := by decide

/-- R81, R85: a header for a frame after E is entered at its index. -/
theorem test_header_accepted : after (.cellHeaderArrival goodHeader) (station .full 90 690)
    (fun t => (t.ingest.counters.stored, (dirGet t.ingest.directory 100).state, t.memory.head))
      = some (1, .writing, 1) := by decide +kernel

/-- R81: the same header is late at E itself. -/
theorem test_header_late : after (.cellHeaderArrival goodHeader) (station .full 100 700)
    (fun t => (t.ingest.counters.late, t.memory.head)) = some (1, 0) := by decide +kernel

/-- A station with the 5 bytes of frame 100 expected at page 0. -/
def receiving : State :=
  let s := station .full 90 690
  (s.setIngest { s.ingest with
    current := some { frame := 100, first := 0, count := 1, stored := 5, received := 0, gathered := [] }
    directory := [(100, { tag := 0, state := .writing, first := 0, count := 1, length := 5,
                          truncated := false, short := false })] }).setMemory
    { s.memory with head := 1, free := 65535, alloc := [{ frame := 100, first := 0, count := 1 }] }

/-- R88: the last stored byte enters the page write; what comes after it is passed over. -/
theorem test_payload_last_byte : after (.cellPayloadBytes [1, 2, 3, 4, 5, 6]) receiving
    (fun t => t.ingest.writeQueue)
      = some [{ frame := 100, first := 0, position := 1, bytes := [1, 2, 3, 4, 5], last := true }] := by
  decide +kernel

/-- The same with its page write waiting. -/
def writing : State :=
  receiving.setIngest { receiving.ingest with
    current := none
    writeQueue := [{ frame := 100, first := 0, position := 1, bytes := [1, 2, 3, 4, 5], last := true }] }

/-- R88, R104: the last write's completion stores the page and makes the entry COMPLETE. -/
theorem test_page_write : after .pageWriteComplete writing
    (fun t => (sparseGet t.memory.pages 0, (dirGet t.ingest.directory 100).state))
      = some (some { frame := 100, bytes := [1, 2, 3, 4, 5] }, .complete) := by decide

/-- A selection record of frame 100 in FULL. -/
def someRecord : SelectionRecord :=
  { tick := 700, service := .full, emit := 100, step := .advance, passed := 0, joinSkip := none,
    covered := false, blank := true }

/-- A station reading frame 100, of 5 bytes, from page 0. -/
def reading (of : ReadOf) : State :=
  let s := station .full 100 700
  ((s.setIngest { s.ingest with
      directory := [(100, { tag := 0, state := .complete, first := 0, count := 1, length := 5,
                            truncated := false, short := false })] }).setMemory
    { s.memory with
      head := 1, free := 65535, alloc := [{ frame := 100, first := 0, count := 1 }]
      pages := [(0, { frame := 100, bytes := [1, 2, 3, 4, 5] })]
      reading := some { of := of, frame := 100, first := 0, count := 1, length := 5,
                        truncated := false } }).setOutput
    { s.output with staging := some { record := someRecord, missing := false, damaged := false } }

/-- R105, R117: a good read sends the payload and moves S. -/
theorem test_read_complete : after .readComplete (reading .emitFrame)
    (fun t => (t.output.link.map (·.payload), t.line.source, t.output.staging))
      = some ([[1, 2, 3, 4, 5]], some 100, none) := by decide +kernel

/-- R106, R116: a failing page is listed, and with S none the cell goes out empty and DAMAGED. -/
theorem test_check_fail : after (.checkFail 1) (reading .emitFrame)
    (fun t => (t.memory.bad, t.output.link.map (fun c => (c.length, c.flags.damaged)),
      t.ingest.directory.map (·.2.state))) = some ([0], [(0, true)], [.damaged]) := by decide +kernel

/-- R130. -/
theorem test_line_tracking_found : after .lineTrackingFound State.reset (·.bus.tracking)
    = some .tracking := by decide

/-- R131, R190: a NOTICE on the line has priority 6, kind 12 and 9 payload bytes. -/
theorem test_frame_start :
    let s := station .full 100 700
    let s := s.setBus { s.bus with queue := [{ msg := someNotice, target := 0, stamp := 1 }] }
    after .frameStart s (fun t => match t.bus.activity with
      | .sending f => (f.priority, f.source, f.kind, f.length, f.payload)
      | _ => (0, 0, 0, 0, [])) = some (6, 3, 12, 9, [0x12, 0, 7, 0, 0, 0, 0, 0, 0]) := by decide +kernel

/-- R132: nothing is counted. -/
theorem test_arbitration_lost : after .arbitrationLost (sendingOf (station .full 100 700) someNotice 0)
    (fun t => (t.bus.activity, t.bus.attempts, t.bus.queue.length)) = some (.reading, 0, 1) := by
  decide +kernel

/-- R133: the first clash is counted, held and noticed. -/
theorem test_id_clash : after .idClash (sendingOf (station .full 100 700) someNotice 0)
    (fun t => (t.bus.attempts, t.bus.counters.idClashes, t.bus.clashSeen, t.bus.queue.length))
      = some (1, 1, true, 2) := by decide +kernel

/-- R134: a good frame is judged good; R145: the sixteenth objection makes the station suspect. -/
theorem test_frame_test_good : after (.frameTest (lineFrame 2 .realign 3)) (station .full 100 700)
    (fun t => match t.bus.activity with | .judged _ g o => (g, o) | _ => (false, true))
      = some (true, false) := by decide +kernel
theorem test_frame_test_bad :
    let s := station .full 100 700
    after (.frameTest { lineFrame 2 .realign 3 with check := 0 })
        (s.setBus { s.bus with objectionRun := 15 })
        (fun t => (t.bus.suspect, t.bus.objectionRun, t.panel.tallies.service))
      = some (true, 16, true) := by decide +kernel

/-- R74: a REALIGN takes FULL to JOIN. -/
theorem test_slot_end_realign : after (.objectionSlotEnd false 0 [])
    (readGoodOf (station .full 100 700) .realign 3) (fun t => (t.line.service, t.peers.roster.length))
      = some (.join, 1) := by decide +kernel

/-- Section 3.9: the COVER of (4, 12) from 4969 is held open to 5569. -/
theorem test_slot_end_cover :
    let o : MarkOpenMsg :=
      { origin := 4, seq := 12, kind := .cover, orphan := false, reannounced := false, lanes := 0xFF,
        start := 4969, fin := none }
    let s := station .full 4400 5000
    after (.objectionSlotEnd false 0 []) (readGoodOf s (.markOpen o) 0)
        (fun t => t.marks.table.map (fun m => (m.start, m.fin, m.trimmed, m.appliedAt)))
      = some [(4969, .openUntil 5569, false, some 5000)] := by decide +kernel

/-- R124. -/
theorem test_cell_leaves :
    let s := station .full 100 700
    let c := outputCell 100 100 0 .full CellFlags.none []
    after .cellLeavesOutputLink (s.setOutput { s.output with link := [c, c] }) (·.output.link.length)
      = some 1 := by decide +kernel

/-! ### Hypotheses met, one theorem for each statement that has some -/

/-- A held station. -/
def held : State := State.reset.setStartup { State.reset.startup with phase := .held }

/-- A LOCK and a DUMP held, a peer known, two frames queued, two bad pages: a station of which every
invariant is asked, with commands waiting. -/
def rich : State :=
  let s := knowing (smallStation .full 92 100) (peerTwo 90)
  let s := (s.setMarks { s.marks with table := lockedDump }).setIngest
    { s.ingest with directory := receiving.ingest.directory }
  let s := s.setBus { s.bus with
    queue := [{ msg := .sessionStart 120, target := 0, stamp := 4 }, { msg := someNotice, target := 0, stamp := 1 }] }
  (s.setMemory { s.memory with
    bad := [4, 9], free := 65534, pages := [(0, { frame := 100, bytes := [1] })] }).setTallies.setPending
      [.referencePulse 101 quietPanel, .frameStart]

/-- A joining station, entered at a tick, with a last beacon of its reference, of its digest. -/
def joiner (entry e : FrameNo) (b : Option LastBeacon) (noReference : Nat) : State :=
  let s := smallStation .join e 100
  let s := s.setLine { s.line with joining := some { entryTick := entry, noReference := noReference } }
  let s := knowing s { newPeer 2 (some 99) with beacon := b, digest := some s.eff.digest }
  s.setPeers { s.peers with reference := b.map (fun _ => 2) }

/-- The reference's beacon of tick 98, at a delay of 7: its emit frame at tick 101 is 94. -/
def leading : LastBeacon :=
  { tick := 98, emit := 91, delay := 7, service := 3, removed := 0, cueCount := 0 }

/-- A station that holds no session entry has none due. -/
theorem noneDue_of_empty (s : State) (h : FrameNo) (hs : s.line.sessions = []) : s.noneDue h := by
  intro x hx; rw [hs] at hx; cases hx

/-- The settings in effect, looked at once. -/
theorem settingsOk_of (s : State) (c : Settings) (d : Derived) (hc : s.startup.config = some c)
    (hd : s.startup.derived = some d) (h : c.inRange ∧ d.inRange) : s.settingsOk :=
  ⟨fun x hx => by rw [hc] at hx; cases hx; exact h.1, fun x hx => by rw [hd] at hx; cases hx; exact h.2⟩

/-- The schedule of a station that shows a frame. -/
theorem scheduleOk_of (s : State) (e h : FrameNo) (he : s.line.emit = some e) (hh : s.clock.tick = some h)
    (hd : s.line.delay = h - e) (h1 : s.line.service ≠ .test) (h2 : s.line.service ≠ .bypass) :
    s.scheduleOk := by
  refine ⟨fun h3 => ?_, fun h3 => ?_, fun x hx => ⟨h, hh, ?_⟩⟩
  · exact absurd h3 (not_or.mpr ⟨h1, h2⟩)
  · rw [he] at h3; cases h3
  · rw [he] at hx; cases hx; exact hd

/-- The dumps of a station at a tick. -/
theorem dumpsNear_of (s : State) (h : FrameNo) (hh : s.clock.tick = some h)
    (hm : ∀ m ∈ s.marks.table, m.kind = .dump →
      -(2 ^ 30 : Int) < (m.endFrame - h).toInt ∧ (m.endFrame - h).toInt < 2 ^ 30) : s.dumpsNear := by
  intro x hx; rw [hh] at hx; cases hx; exact hm

/-- The same. -/
theorem dumpsClamped_of (s : State) (h : FrameNo) (hh : s.clock.tick = some h)
    (hm : ∀ m ∈ s.marks.table, m.kind = .dump → (m.endFrame - h).toInt ≤ 0) : s.dumpsClamped := by
  intro _ x hx; rw [hh] at hx; cases hx; exact hm

/-- The spans of a table below one emit frame. -/
theorem spansOk_of (s : State) (e : FrameNo) (he : s.line.emit = some e) (hs : s.line.service.selects = true)
    (hm : ∀ m ∈ s.marks.table, m.spanOk s.cfg
      ∧ (atOrBefore (e + 1) m.start = true ∨ before m.endFrame (e + 1) = false)) : s.spansOk := by
  refine ⟨fun h => ?_, fun m hx => ⟨(hm m hx).1, fun _ x h2 => ?_⟩⟩
  · rw [hs] at h; cases h
  · rw [he] at h2; cases h2; exact (hm m hx).2

/-- Outside JOIN there is no reference to look at. -/
theorem referenceNear_of (s : State) (h : s.line.service ≠ .join) : s.referenceNear :=
  fun h2 => absurd h2 h

/-! #### The machine, start-up and the clock -/

theorem test_hyps_StepRunsTheFrontCommand :
    rich.pending = .referencePulse 101 quietPanel :: [.frameStart] ∧ State.reset.pending = [] := by decide

/-- In a service state, while reading and while testing; and a RESTART read good in BYPASS. -/
theorem test_hyps_PinAndBusResetsTaken :
    (station .full 100 700).startup.phase ≠ .held ∧ State.reset.startup.phase ≠ .held
      ∧ (State.reset.setStartup { State.reset.startup with phase := .testing }).startup.phase = .testing
      ∧ let s := readGoodOf (station .bypass 0 0) .restart 3
        s.hasReadGood (lineFrame 2 .restart 3) ∧ (lineFrame 2 .restart 3).kind = 9
          ∧ (lineFrame 2 .restart 3).target = s.startup.id :=
  ⟨by decide, by decide, by decide, ⟨rfl, by decide⟩, by decide, by decide⟩

/-- The commands that reset, and two that do not. -/
theorem test_hyps_CauseRecordChangedByResetsOnly :
    (∃ t, exec (.powerApplied false 3) rich = .next t)
      ∧ ((∃ t, exec (.resetAsserted []) rich = .next t) ∧ rich.startup.phase ≠ .held)
      ∧ ((∃ t, exec (.objectionSlotEnd false 3 []) (readGoodOf rich .restart 3) = .next t)
        ∧ (readGoodOf rich .restart 3).holdsRestart = true)
      ∧ ((∃ t, exec (.objectionSlotEnd true 3 []) (readGoodOf rich .restart 3) = .next t))
      ∧ ∃ t, exec .frameStart rich = .next t :=
  ⟨⟨_, rfl⟩, ⟨⟨_, rfl⟩, by decide⟩, ⟨⟨_, rfl⟩, by decide⟩, ⟨_, rfl⟩, ⟨_, rfl⟩⟩

theorem test_hyps_HeldStationAwaitsRelease :
    held.startup.phase = .held ∧ held.heldOk ∧ held.phaseOk
      ∧ (∀ a straps, Instr.frameStart ≠ .powerApplied a straps)
      ∧ ∀ straps, Instr.frameStart ≠ .resetReleased straps := by
  refine ⟨by decide, ?_, ?_, by simp, by simp⟩
  · unfold State.heldOk; decide
  · unfold State.phaseOk; decide

/-- A read after POWER; one after a PIN reset, of a monitor and of a station that is none; a test ended by
33 pages, by 32, and by none. -/
theorem test_hyps_ReadAndTestSettleStartUp :
    (State.reset.startup.phase = .reading ∧ State.reset.startup.cause.last = .power)
    ∧ (∀ id ∈ [0, 3],
      let s := State.reset.setStartup
        { State.reset.startup with id := id, cause := State.reset.startup.cause.update .pin }
      s.startup.phase = .reading ∧ s.startup.cause.last ≠ .power ∧ s.bus.queue = []
        ∧ s.bus.headHeld = false)
    ∧ let s := State.reset.setStartup { State.reset.startup with phase := .testing }
      s.startup.phase = .testing ∧ s.startup.testResult = true
        ∧ Instr.wf (.memoryTestComplete ((List.range 33).map (BitVec.ofNat 16))) = true
        ∧ Instr.wf (.memoryTestComplete ((List.range 32).map (BitVec.ofNat 16))) = true
        ∧ Instr.wf (.memoryTestComplete []) = true := by decide +kernel

theorem test_hyps_SettingsInRange :
    ((0 : Nat) ≤ 32 ∧ (32 : Nat) ≤ 32)
      ∧ badOk rich.memory.bad ∧ rich.phaseOk ∧ rich.settingsOk ∧ ∃ t, step rich = .next t := by
  refine ⟨by decide, ?_, ?_, settingsOk_of _ _ _ rfl rfl ?_, ⟨_, rfl⟩⟩
  · unfold badOk; decide
  · unfold State.phaseOk; decide
  · unfold Settings.inRange Derived.inRange; decide

/-- The first tick, the next in LOCKED, the one that ends a holdover, the wrap; and a pulse of the current
tick number in HOLDOVER. -/
theorem test_hyps_PulseIsTheTickOfItsCount :
    State.reset.tickMade (.referencePulse 7 quietPanel) = some 7
      ∧ (station .full 100 700).tickMade (.referencePulse 701 quietPanel) = some 701
      ∧ (inHoldover (station .full 100 700)).tickMade (.referencePulse 701 quietPanel) = some 701
      ∧ (station .full 100 0xFFFFFFFF).tickMade (.referencePulse 0 quietPanel) = some 0
      ∧ let s := inHoldover (station .full 100 700)
        s.startup.phase ≠ .held ∧ s.clock.ref = .holdover ∧ s.clock.tick = some 700 := by decide

/-- Of a LOCKED station the equal count and one too many, of one in HOLDOVER one too many; in LINEUP, JOIN,
TEST and BYPASS, the queue with five frames. -/
theorem test_hyps_DiscontinuityReturnsToLineup :
    (∀ h ∈ [700, 702], let s := station .lineup 699 700
      s.startup.phase ≠ .held ∧ s.clock.tick = some 700 ∧ s.line.service.selects = true ∧ h ≠ 700 + 1
        ∧ (s.clock.ref = .locked ∨ (s.clock.ref = .holdover ∧ h ≠ 700)))
    ∧ ∀ sv ∈ [Service.join, .test, .bypass],
      let s := inHoldover (station sv 100 700)
      let s := s.setBus { s.bus with queue := List.replicate 5 { msg := someNotice, target := 0, stamp := 1 } }
      s.startup.phase ≠ .held ∧ s.clock.tick = some 700 ∧ (702 : FrameNo) ≠ 700 + 1
        ∧ (s.clock.ref = .locked ∨ (s.clock.ref = .holdover ∧ (702 : FrameNo) ≠ 700))
        ∧ (sv = .join → s.line.service.selects = true ∧ s.mayTransmit = true)
        ∧ s.line.sessions = [] ∧ s.bus.queue.length < 6 ∧ s.panel.last = none := by decide

/-- A FULL station with a damaged cell staged and a peer known: the cells sent, the counters, the roster and
the notice. -/
theorem test_hyps_DiscontinuityReturnsToLineup_clauses :
    let s := knowing (station .full 100 700) (peerTwo 690)
    let r : SelectionRecord :=
      { tick := 700, service := .full, emit := 100, step := .advance, passed := 0, joinSkip := none
        covered := false, blank := false }
    let s := s.setOutput { s.output with staging := some { record := r, missing := false, damaged := true } }
    after (.referencePulse 702 quietPanel) s
        (fun t => (t.output.link.map (fun c => (c.emit, c.flags.lateRead, c.flags.damaged)),
          [t.output.counters.missing, t.output.counters.damaged, t.output.counters.lateRead],
          t.peers.roster.map (·.lastHeard), decide (t.bus.queue.map (·.msg)
            = [.notice { code := 0x13, tick := 702, frame := 100, detail := 1 }])))
      = some ([(100, true, true), (701, false, false)], [2, 1, 1], [some 702], true) := by decide +kernel

theorem test_hyps_OwnTicksCountOn :
    let s := station .full 100 700
    let r := inHoldover s
    (s.clock.ref = .locked ∧ s.clock.absence.isSome = true ∧ s.clock.tick = some 700)
      ∧ (r.clock.tick = some 700 ∧ r.clock.ref = .holdover ∧ r.clock.own.isSome = true)
      ∧ s.startup.phase ≠ .held := by decide

/-- Each of the three commands that make a tick, and a state that selects. -/
theorem test_hyps_TickKeepsTheRest :
    (station .full 100 700).tickMade (.referencePulse 701 quietPanel) = some 701
      ∧ (station .full 100 700).tickMade (.absenceTimerExpiry quietPanel) = some 701
      ∧ (inHoldover (station .full 100 700)).tickMade (.ownTickTimerExpiry quietPanel) = some 701
      ∧ (station .full 100 700).line.service.selects = true := by
  decide

/-! #### The delay line -/

theorem test_hyps_LineupTickIsLive :
    let s := station .lineup 699 700
    s.tickMade (.referencePulse 701 quietPanel) = some 701 ∧ s.line.service = .lineup ∧ s.noneDue 701 :=
  ⟨by decide, by decide, noneDue_of_empty _ _ rfl⟩

/-- A hold tick, and a step tick. -/
theorem test_hyps_BuildTickHoldsOrSteps :
    let s := smallStation .build 104 111
    let r := smallStation .build 101 108
    (s.tickMade (.referencePulse 112 quietPanel) = some 112 ∧ s.line.service = .build
      ∧ s.line.emit = some 104 ∧ s.noneDue 112)
    ∧ r.tickMade (.referencePulse 109 quietPanel) = some 109 ∧ r.line.service = .build
      ∧ r.line.emit = some 101 ∧ r.noneDue 109 :=
  ⟨⟨by decide, by decide, by decide, noneDue_of_empty _ _ rfl⟩,
    by decide, by decide, by decide, noneDue_of_empty _ _ rfl⟩

theorem test_hyps_FullTickSteps :
    rich.tickMade (.referencePulse 101 quietPanel) = some 101 ∧ rich.line.service = .full
      ∧ rich.line.emit = some 92 ∧ rich.noneDue 101 ∧ rich.line.delay = (101 - 1) - 92 :=
  ⟨by decide, by decide, by decide, noneDue_of_empty _ _ rfl, by decide⟩

/-- A drop, and a tick that is none; the drop of tick 232 comes to a delay of 1. -/
theorem test_hyps_DrainTickDropsOrSteps :
    let s := smallStation .drain 229 231
    let r := smallStation .drain 199 208
    (s.tickMade (.referencePulse 232 quietPanel) = some 232 ∧ s.line.service = .drain
      ∧ s.line.emit = some 229 ∧ s.noneDue 232
      ∧ (232 : FrameNo).toNat % s.cfg.drain = 0 ∧ locked s.marks.table 230 = false
      ∧ atOrBefore 231 (232 - 1) = true)
    ∧ r.tickMade (.referencePulse 209 quietPanel) = some 209 ∧ r.line.service = .drain
      ∧ r.line.emit = some 199 ∧ r.noneDue 209 :=
  ⟨⟨by decide, by decide, by decide, noneDue_of_empty _ _ rfl, by decide, by decide, by decide⟩,
    by decide, by decide, by decide, noneDue_of_empty _ _ rfl⟩

theorem test_hyps_NextIsFirstFrameNotDumped : spansNear lockedDump 92 := by
  unfold spansNear; decide

/-- The target at E, at C, and one past C: a hold, a step and a skip; no estimate; each limit reached. -/
theorem test_hyps_JoinTickFollowsEstimate :
    (∀ x ∈ [((90 : FrameNo), (94 : FrameNo), some leading, 0), (90, 93, some leading, 0),
        (90, 92, some leading, 0), (90, 94, none, 0), (90, 94, none, 399), (101 - 1600, 93, some leading, 0)],
      let s := joiner x.1 x.2.1 x.2.2.1 x.2.2.2
      s.tickMade (.referencePulse 101 quietPanel) = some 101 ∧ s.line.service = .join
        ∧ s.line.emit = some x.2.1 ∧ s.line.joining = some { entryTick := x.1, noReference := x.2.2.2 }
        ∧ s.noneDue 101)
    ∧ ([((94 : FrameNo), some leading), (93, some leading), (92, some leading), (94, none)].map
        (fun x => after (.referencePulse 101 quietPanel) (joiner 90 x.1 x.2 0) (·.line.emit)))
      = [some (some 94), some (some 94), some (some 94), some (some 95)]
    ∧ after (.referencePulse 101 quietPanel) (joiner 90 94 none 399) (·.line.service) = some .drain
    ∧ after (.referencePulse 101 quietPanel) (joiner (101 - 1600) 93 (some leading) 0) (·.line.service)
      = some .drain := by
  refine ⟨?_, by decide +kernel, by decide +kernel, by decide +kernel⟩
  unfold State.noneDue; decide

/-- The bounds of a schedule hold of a station without marks. -/
theorem bounds_of (s : State) (e h : FrameNo) (he : s.line.emit = some e) (hh : s.clock.tick = some h)
    (hs : s.line.service.selects = true) (ht : s.marks.table = []) (hd : s.line.delay = h - e)
    (h1 : s.line.service ≠ .test) (h2 : s.line.service ≠ .bypass) :
    s.spansOk ∧ s.scheduleOk ∧ s.dumpsNear ∧ s.dumpsClamped := by
  refine ⟨spansOk_of s e he hs ?_, scheduleOk_of s e h he hh hd h1 h2, dumpsNear_of s h hh ?_,
    dumpsClamped_of s h hh ?_⟩ <;> (rw [ht]; intro m hm; cases hm)

/-- In FULL over a DUMP and a LOCK; in JOIN; at a delay of 1 in LINEUP and in DRAIN. -/
theorem test_hyps_SelectionKeepsOrder :
    (rich.tickMade (.referencePulse 101 quietPanel) = some 101 ∧ rich.line.emit = some 92
      ∧ rich.noneDue 101 ∧ rich.clockOk ∧ rich.settingsOk ∧ rich.spansOk ∧ rich.scheduleOk ∧ rich.delayOk
      ∧ rich.dumpsClamped ∧ rich.dumpsNear ∧ rich.referenceNear ∧ rich.line.service.delaying = true)
    ∧ (let s := joiner 90 92 (some leading) 0
      s.tickMade (.referencePulse 101 quietPanel) = some 101 ∧ s.line.emit = some 92
      ∧ s.noneDue 101 ∧ s.clockOk ∧ s.settingsOk ∧ s.spansOk ∧ s.scheduleOk ∧ s.delayOk
      ∧ s.dumpsClamped ∧ s.dumpsNear ∧ s.referenceNear ∧ s.line.service = .join)
    ∧ let s := smallStation .lineup 99 100
      s.tickMade (.referencePulse 101 quietPanel) = some 101 ∧ s.line.emit = some 99
      ∧ s.noneDue 101 ∧ s.clockOk ∧ s.settingsOk ∧ s.spansOk ∧ s.scheduleOk ∧ s.delayOk
      ∧ s.dumpsClamped ∧ s.dumpsNear ∧ s.referenceNear := by
  refine ⟨⟨by decide, by decide, noneDue_of_empty _ _ rfl, ?_, settingsOk_of _ _ _ rfl rfl ?_,
    spansOk_of _ 92 rfl rfl ?_, scheduleOk_of _ 92 100 rfl rfl rfl (by decide) (by decide), ?_,
    dumpsClamped_of _ 100 rfl ?_, dumpsNear_of _ 100 rfl ?_, referenceNear_of _ (by decide), rfl⟩,
    ⟨by decide, by decide, noneDue_of_empty _ _ rfl, ?_, settingsOk_of _ _ _ rfl rfl ?_, ?_⟩,
    by decide, by decide, noneDue_of_empty _ _ rfl, ?_, settingsOk_of _ _ _ rfl rfl ?_, ?_⟩
  · unfold State.clockOk; decide
  · unfold Settings.inRange Derived.inRange; decide
  · unfold Mark.spanOk; decide
  · unfold State.delayOk; decide
  · decide
  · decide
  · unfold State.clockOk; decide
  · unfold Settings.inRange Derived.inRange; decide
  · obtain ⟨a, b, c, d⟩ := bounds_of (joiner 90 92 (some leading) 0) 92 100 rfl rfl rfl rfl rfl
      (by decide) (by decide)
    refine ⟨a, b, ?_, d, c, ?_, rfl⟩
    · unfold State.delayOk; decide
    · intro _ id p b h1 h2 h3
      cases h1; cases h2; cases h3; decide
  · unfold State.clockOk; decide
  · unfold Settings.inRange Derived.inRange; decide
  · obtain ⟨a, b, c, d⟩ := bounds_of (smallStation .lineup 99 100) 99 100 rfl rfl rfl rfl rfl
      (by decide) (by decide)
    refine ⟨a, b, ?_, d, c, referenceNear_of _ (by decide)⟩
    unfold State.delayOk; decide

theorem test_hyps_ScheduleBoundsKept :
    rich.clockOk ∧ rich.phaseOk ∧ rich.settingsOk ∧ rich.joinOk ∧ rich.spansOk ∧ rich.scheduleOk
      ∧ rich.dumpsNear ∧ rich.referenceNear ∧ rich.delayOk ∧ rich.dumpsClamped
      ∧ ∃ t, step rich = .next t := by
  obtain ⟨-, -, -, a, b, c, d, e, f, g, h, -⟩ := test_hyps_SelectionKeepsOrder.1
  refine ⟨a, ?_, b, ?_, c, d, g, h, e, f, ⟨_, rfl⟩⟩
  · unfold State.phaseOk; decide
  · unfold State.joinOk; decide

/-- The no-reference count at its limit, the time at its limit, and neither. -/
theorem test_hyps_JoinLimitAbandonsJoin :
    ∀ j ∈ [JoinRecord.mk 690 400, JoinRecord.mk (700 - 1600) 0, JoinRecord.mk 690 399],
      let s := station .join 100 700
      let s := s.setLine { s.line with joining := some j }
      s.clock.tick = some 700 ∧ s.line.service = .join ∧ s.line.joining = some j := by decide

/-! #### Sessions and joining -/

/-- Timely at 250 ticks ahead, refused at 251, late at the tick itself, in no row at 2^31; in TEST; with
no tick; in BYPASS. -/
theorem test_hyps_SessionFrameHandled :
    (∀ a ∈ [(701 : FrameNo), 950, 951, 700, 700 + 0x80000000],
      let s := readGoodOf (station .lineup 699 700) (.sessionStart a) 0
      (2 : StationId) ≠ 0 ∧ s.hasReadGood (lineFrame 2 (SessionKind.start.msg a) 0)
        ∧ s.line.sessions.length < 4
        ∧ ∀ x ∈ s.line.sessions, ¬ (x.kind = SessionKind.start ∧ x.applyAt = a))
    ∧ (readGoodOf (station .test 0 700) (.sessionStart 701) 0).line.service = .test
    ∧ (readGoodOf State.reset (.sessionStart 701) 0).clock.tick = none
    ∧ (readGoodOf (station .bypass 0 700) (.sessionStart 701) 0).line.service = .bypass := by
  refine ⟨?_, by decide, by decide, by decide⟩
  intro a _
  exact ⟨by decide, ⟨rfl, (by decide : (2 : StationId) ≠ 3)⟩, (by decide : 0 < 4), fun x hx => by cases hx⟩

/-- What the named tick comes to: timely, timely, refused, late, nothing. -/
theorem test_hyps_SessionFrameHandled_clauses :
    ([(701 : FrameNo), 950, 951, 700, 700 + 0x80000000].map (fun a =>
      after (.objectionSlotEnd false 0 []) (readGoodOf (station .lineup 699 700) (.sessionStart a) 0)
        (fun t => (t.line.sessions.map (fun x => (x.action, x.late)), t.bus.counters.sessionIgnored))))
      = [some ([(701, false)], 0), some ([(950, false)], 0), some ([], 1), some ([(701, true)], 0),
         some ([], 0)] := by decide +kernel

/-- A start in LINEUP, in DRAIN at the target and below it; an end in BUILD, FULL and JOIN; a start in
FULL; a late one. -/
theorem test_hyps_DueSessionTaken :
    ∀ x ∈ [(Service.lineup, SessionKind.start, (99 : FrameNo), false), (.drain, .start, 92, false),
        (.drain, .start, 95, true), (.build, .stop, 95, false), (.full, .stop, 92, true),
        (.join, .stop, 95, false), (.full, .start, 92, false)],
      let due : SessionEntry :=
        { kind := x.2.1, applyAt := 101, action := 101, origin := 2, late := x.2.2.2 }
      let s := smallStation x.1 x.2.2.1 100
      let s := s.setLine { s.line with sessions := [due] }
      s.tickMade (.referencePulse 101 quietPanel) = some 101
        ∧ s.line.sessions.filter (fun y => decide (y.action = 101)) = due :: [] := by decide

/-- A BEACON of tick 700 in FULL, from the digest of the defaults. -/
def someBeacon : BeaconMsg :=
  { tick := 700, emit := 100, delay := 600, service := 3, removed := 0, cueCount := 0, digest := 0x1439 }

/-- A station with a schedule, and the history entry of its tick, at which a beacon was read good of a peer
of the same digest. -/
def heard (s : State) (m : BeaconMsg) : State :=
  let p := { peerTwo 690 with alignFault := false, digest := some s.eff.digest }
  let x : HistoryEntry := { tick := 700, emit := s.emitOrZero, delay := s.line.delay, removed := 5 }
  readGoodOf (knowing (s.setLine { s.line with history := [x] }) p) (.beacon m) 0

/-- Parked: a LOCK that stays, trimmed, and a DUMP that leaves. -/
def parked : List Mark :=
  [{ key := { origin := 4, seq := 1, orphan := false }, kind := .lock, lanes := 0xFF, start := 600,
     fin := .closed 900, trimmed := false, appliedAt := some 650 },
   { key := { origin := 4, seq := 2, orphan := false }, kind := .dump, lanes := 0xFF, start := 650,
     fin := .closed 800, trimmed := false, appliedAt := some 660 }]

/-- The peer heard, as the roster holds it. -/
def heardPeer : Peer := { peerTwo 690 with alignFault := false, digest := some 0x1439 }

/-- By a beacon that does not converge, by one that does, of a sender not yet heard, with E none; and a REALIGN in FULL, in DRAIN and
in TEST. -/
theorem test_hyps_JoinEntered :
    (∀ m ∈ [someBeacon, { someBeacon with emit := 699, delay := 1 }],
      let s := heard (station .lineup 699 700) m
      let s := s.setMarks { s.marks with table := parked }
      (2 : StationId) ≠ 0 ∧ s.hasReadGood (lineFrame 2 (.beacon m) 0) ∧ s.line.service = .lineup
        ∧ s.clock.tick = some 700 ∧ (s.peers.roster.map (·.id)).Nodup ∧ marksOk s.marks.table ∧ s.countersOk
        ∧ m.digest = s.eff.digest ∧ (m.service = 2 ∨ m.service = 3 ∨ m.service = 4)
        ∧ s.cfg.autoJoin = true ∧ s.line.emit = some 699
        ∧ historyAt s.line.history m.tick = some { tick := 700, emit := 699, delay := 1, removed := 5 })
    ∧ (let s := readGoodOf (station .lineup 699 700) (.beacon someBeacon) 0
      s.hasReadGood (lineFrame 2 (.beacon someBeacon) 0) ∧ findPeer s.peers.roster 2 = none
        ∧ (s.peers.roster.map (·.id)).Nodup ∧ (s.hear 2).peers.roster = [newPeer 2 (some 700)])
    ∧ (let s := heard (station .lineup 699 700) someBeacon
      (s.setLine { s.line with emit := none }).line.emit = none)
    ∧ ∀ sv ∈ [Service.full, .drain, .test],
      let s := readGoodOf (station sv 100 700) .realign 3
      s.startup.id ≠ 0 ∧ s.hasReadGood (lineFrame 2 .realign s.startup.id) ∧ s.clock.tick = some 700 := by
  refine ⟨?_, ⟨⟨rfl, by decide⟩, rfl, .nil, rfl⟩, rfl, ?_⟩
  · intro m hm
    have h : m.digest = 0x1439 ∧ m.service = 3 ∧ m.tick = 700 := by
      simp only [List.mem_cons, List.not_mem_nil, or_false] at hm
      rcases hm with rfl | rfl <;> decide
    refine ⟨by decide, ⟨rfl, (by decide : (2 : StationId) ≠ 3)⟩, rfl, rfl,
      List.pairwise_singleton _ _, (by unfold marksOk; decide : marksOk parked), ?_, h.1, .inr (.inl h.2.1), rfl,
      rfl, ?_⟩
    · exact (by unfold State.countersOk; decide : (station .lineup 699 700).countersOk)
    · rw [h.2.2]; rfl
  · intro sv _
    exact ⟨(by decide : (3 : StationId) ≠ 0), ⟨rfl, (by decide : (2 : StationId) ≠ 3)⟩, rfl⟩

/-- What they come to: JOIN, and the state carried at once; in both the LOCK starts at E + 1 and the DUMP,
which could end no later than the tick, is gone. -/
theorem test_hyps_JoinEntered_clauses :
    [someBeacon, { someBeacon with emit := 699, delay := 1 }].map (fun m =>
      let s := heard (station .lineup 699 700) m
      after (.objectionSlotEnd false 0 []) (s.setMarks { s.marks with table := parked })
        (fun t => (t.line.service, t.line.removed, t.marks.counters.tooLate)))
      = [some (.join, 0, 1), some (.full, 0xFFFFFFFB, 1)]
    ∧ [someBeacon, { someBeacon with emit := 699, delay := 1 }].map (fun m =>
      let s := heard (station .lineup 699 700) m
      after (.objectionSlotEnd false 0 []) (s.setMarks { s.marks with table := parked })
        (fun t => (t.peers.reference, t.marks.table.map (fun x => (x.start, x.fin)))))
      = [some (some 2, [(700, .closed 900)]), some (none, [(700, .closed 900)])] := by decide +kernel

/-- A stale beacon, one that converges, and one that does not. -/
theorem test_hyps_ConvergingBeaconCompletesJoin :
    ∀ m ∈ [{ someBeacon with tick := 699 }, someBeacon, { someBeacon with emit := 101 }],
      let s := heard (station .join 100 700) m
      (2 : StationId) ≠ 0 ∧ s.hasReadGood (lineFrame 2 (.beacon m) 0) ∧ s.line.service = .join
        ∧ findPeer s.peers.roster 2 = some heardPeer
        ∧ (s.peers.roster.map (·.id)).Nodup ∧ m.digest = s.eff.digest
        ∧ (m.service = 2 ∨ m.service = 3 ∨ m.service = 4)
        ∧ (∀ q ∈ s.peers.roster, q.mayLead s.eff.digest → (2 : StationId).toNat ≤ q.id.toNat)
        ∧ (historyAt s.line.history m.tick).isSome = decide (m.tick = 700) := by
  intro m hm
  have h : m.digest = 0x1439 ∧ m.service = 3 ∧ (m.tick = 699 ∨ m.tick = 700) := by
    simp only [List.mem_cons, List.not_mem_nil, or_false] at hm
    rcases hm with rfl | rfl | rfl <;> decide
  refine ⟨by decide, ⟨rfl, (by decide : (2 : StationId) ≠ 3)⟩, rfl, rfl, List.pairwise_singleton _ _, h.1,
    .inr (.inl h.2.1), ?_, ?_⟩
  · intro q hq _
    have hq' : q ∈ [heardPeer] := hq
    simp only [List.mem_cons, List.not_mem_nil, or_false] at hq'
    rw [hq']; decide
  · rcases h.2.2 with h | h <;> rw [h] <;> rfl

/-! #### The mark table -/

/-- The COVER of section 3.9. -/
def someCover : MarkOpenMsg :=
  { origin := 4, seq := 12, kind := .cover, orphan := false, reannounced := false, lanes := 0xFF,
    start := 4969, fin := none }

/-- A table with the LOCK of a key, closed. -/
def lockTable (n : Nat) : List Mark :=
  (List.range n).map (fun i =>
    { key := { origin := 5, seq := BitVec.ofNat 8 i, orphan := false }, kind := .lock, lanes := 0xFF
      start := 4960, fin := .closed 4990, trimmed := false, appliedAt := some 4950 })

/-- The MARK-OPENs that the tests of section 3.5 tell apart, with the service state and the table: one
that joins; one of a key held, the same and another; its end at its start; aired already; parked with the
same span, and an open one parked; at a full table; trimmed; a DUMP whose end is to come, at a forced lane
set. -/
def opened : List (Service × List Mark × MarkOpenMsg) :=
  let lock : MarkOpenMsg :=
    { origin := 5, seq := 0, kind := .lock, orphan := false, reannounced := true, lanes := 0xFF
      start := 4960, fin := some 4990 }
  [(.full, [], someCover), (.full, lockTable 1, lock), (.full, lockTable 1, { lock with fin := some 4991 }),
   (.full, [], { lock with fin := some 4960 }), (.full, [], { lock with start := 4300, fin := some 4401 }),
   (.lineup, [], { lock with start := 4300, fin := some 4401 }),
   (.lineup, [], { lock with start := 4300, fin := none }), (.full, lockTable 32, { lock with seq := 32 }),
   (.full, [], { lock with start := 4400, fin := some 4402 }),
   (.full, [], { lock with kind := .dump, lanes := 1, fin := some 5003 })]

theorem test_hyps_MarkOpenApplied :
    ∀ x ∈ opened,
      let s := readGoodOf (station x.1 4400 5000) (.markOpen x.2.2) 0
      let s := s.setMarks { s.marks with table := x.2.1 }
      (2 : StationId) ≠ 0 ∧ s.bus.activity = .judged (lineFrame 2 (.markOpen x.2.2) 0) true false
        ∧ s.startup.id ≠ 2 ∧ s.line.service.selects = true
        ∧ (x.2.2.kind = .dump → x.2.2.fin ≠ none)
        ∧ (s.line.service.delaying = true → s.line.emit = some 4400 ∧ s.clock.tick = some 5000) := by
  decide +kernel

/-- What each comes to: applied, conflicts, too late, refused full, trimmed and lane forced, and the table's
last start and end. -/
theorem test_hyps_MarkOpenApplied_clauses :
    opened.map (fun x =>
      let s := readGoodOf (station x.1 4400 5000) (.markOpen x.2.2) 0
      after (.objectionSlotEnd false 0 []) (s.setMarks { s.marks with table := x.2.1 })
        (fun t =>
          let k := t.marks.counters
          ([k.applied, k.conflicts, k.tooLate, k.refusedFull, k.trimmed, k.laneForced],
            t.marks.table.getLast?.map (fun m => (m.start, m.fin)))))
      = [some ([1, 0, 0, 0, 0, 0], some (4969, .openUntil 5569)),
         some ([0, 0, 0, 0, 0, 0], some (4960, .closed 4990)),
         some ([0, 1, 0, 0, 0, 0], some (4960, .closed 4990)),
         some ([0, 0, 1, 0, 0, 0], none), some ([0, 0, 1, 0, 0, 0], none),
         some ([1, 0, 0, 0, 0, 0], some (4300, .closed 4401)),
         some ([1, 0, 0, 0, 0, 0], some (4300, .openUntil 7900)),
         some ([0, 0, 0, 1, 0, 0], some (4960, .closed 4990)),
         some ([1, 0, 0, 0, 1, 0], some (4401, .closed 4402)),
         some ([1, 0, 0, 0, 0, 1], some (4960, .closed 5000))] := by decide +kernel

/-- A station that knows station 4, of which it expects the sequence 11 next. -/
def expecting (sv : Service) : State :=
  knowing (station sv 4400 5000) { newPeer 4 (some 4990) with expected := some 11 }

/-- With a gap and room for its notice: from station 2, and the station's own frame, whose origin no roster
has an entry for. -/
theorem test_hyps_MarkOpenApplied_gap :
    let s := readGoodOf (expecting .full) (.markOpen someCover) 0
    let own := { someCover with origin := 3 }
    let r := sendingOf (expecting .full) (.markOpen own) 0
    (s.bus.activity = .judged (lineFrame 2 (.markOpen someCover) 0) true false ∧ s.startup.id ≠ 2
      ∧ s.startup.id ≠ 0 ∧ s.bus.queue.length < 6)
    ∧ (r.bus.activity = .sending (lineFrame 3 (.markOpen own) 0) ∧ r.startup.id = 3
      ∧ r.bus.queue.length < 6 ∧ r.marks.reannounce = [] ∧ r.line.service.selects = true
      ∧ (r.line.service.delaying = true → r.line.emit = some 4400 ∧ r.clock.tick = some 5000))
    ∧ [s, r].map (fun x => after (.objectionSlotEnd false 0 []) x (fun t =>
        (t.marks.counters.gaps, t.marks.counters.applied,
          (findPeer t.peers.roster 4).bind (·.expected), t.bus.queue.map (·.msg))))
      = [some (1, 1, some 13, [.notice { code := 0x05, tick := 5000, frame := 11, detail := 0x040C }]),
         some (0, 1, some 11, [])] := by
  refine ⟨⟨rfl, by decide, by decide, by decide⟩, ⟨rfl, rfl, by decide, rfl, by decide, by decide⟩, ?_⟩
  decide +kernel

/-- A table with a LOCK that is open until 7000, from a start. -/
def openLock (start : FrameNo) : List Mark :=
  [{ key := { origin := 5, seq := 0, orphan := false }, kind := .lock, lanes := 0xFF, start := start
     fin := .openUntil 7000, trimmed := false, appliedAt := some 4000 }]

/-- Live, and parked; with the key held open, held closed, and not held. -/
theorem test_hyps_MarkClosedOrRetracted :
    ∀ x ∈ [(Service.full, openLock 4300), (.lineup, openLock 4300), (.full, lockTable 1), (.full, [])],
      ∀ m ∈ [CueMsg.markClose 5 0 4400, .markRetract 5 0],
        let s := readGoodOf (station x.1 4400 5000) m 0
        let s := s.setMarks { s.marks with table := x.2 }
        (2 : StationId) ≠ 0 ∧ s.bus.activity = .judged (lineFrame 2 m 0) true false
          ∧ s.startup.id ≠ 2 ∧ s.line.service.selects = true
          ∧ (s.line.service.delaying = true → s.line.emit = some 4400) := by decide +kernel

/-- A close before E + 1 is moved to it when live; a retracted LOCK not yet aired leaves, and an aired one
ends at E + 1. -/
theorem test_hyps_MarkClosedOrRetracted_clauses :
    [(Service.full, openLock 4300, CueMsg.markClose 5 0 4400), (.lineup, openLock 4300, .markClose 5 0 4400),
      (.full, lockTable 1, .markClose 5 0 4400), (.full, openLock 4300, .markRetract 5 0),
      (.full, openLock 4401, .markRetract 5 0), (.lineup, openLock 4300, .markRetract 5 0),
      (.full, [], .markRetract 5 0)].map (fun x =>
        let s := readGoodOf (station x.1 4400 5000) x.2.2 0
        after (.objectionSlotEnd false 0 []) (s.setMarks { s.marks with table := x.2.1 })
          (fun t => (t.marks.table.map (fun m => (m.start, m.fin)), t.marks.counters.closesIgnored,
            t.marks.counters.retractsLate)))
      = [some ([(4300, .closed 4401)], 0, 0), some ([(4300, .closed 4400)], 0, 0),
         some ([(4960, .closed 4990)], 1, 0), some ([(4300, .closed 4401)], 0, 0), some ([], 0, 0),
         some ([], 0, 0), some ([], 0, 1)] := by decide +kernel

/-- Three open LOCKs parked whose starts go round the ring, each before the next: the close of the last
leaves it in its place (R53). -/
theorem test_close_moves_nothing :
    let lock (i : Nat) (start : FrameNo) : Mark :=
      { key := { origin := 5, seq := BitVec.ofNat 8 i, orphan := false }, kind := .lock, lanes := 0xFF
        start := start, fin := .openUntil (start + 3600), trimmed := false, appliedAt := none }
    let s := readGoodOf (station .lineup 699 700) (.markClose 5 2 0xC0000009) 0
    let s := s.setTable [lock 0 0, lock 1 0x60000000, lock 2 0xC0000000]
    after (.objectionSlotEnd false 0 []) s (fun t => t.marks.table.map (fun m => (m.key.seq, m.fin)))
      = some [(0, .openUntil 3600), (1, .openUntil 0x60000E10), (2, .closed 0xC0000009)] := by
  decide +kernel

/-- Read good, and the station's own; in FULL, and in BYPASS. -/
theorem test_hyps_CueCountCountsMarkFrames :
    (2 : StationId) ≠ 0 ∧ (3 : StationId) ≠ 0
      ∧ (readGoodOf (station .full 4400 5000) (.markRetract 4 12) 0).hasReadGood
        (lineFrame 2 (.markRetract 4 12) 0)
      ∧ (sendingOf (station .full 4400 5000) (.markRetract 4 12) 0).bus.activity
        = .sending (lineFrame 3 (.markRetract 4 12) 0)
      ∧ (station .full 4400 5000).line.service.selects = true
      ∧ (readGoodOf (station .bypass 0 5000) (.markRetract 4 12) 0).hasReadGood
        (lineFrame 2 (.markRetract 4 12) 0)
      ∧ (station .bypass 0 5000).line.service.selects = false :=
  ⟨by decide, by decide, ⟨rfl, by decide⟩, rfl, by decide, ⟨rfl, by decide⟩, by decide⟩

/-- A HELLO of station 2. -/
def someHello : HelloMsg :=
  { station := 2, lane := 1, service := 1, cause := 1, restarts := 0, seen := 1, digest := 0x1439,
    configFlags := 0, vendor := 0x1C7, part := 0x2408, revision := 2 }

/-- Two orphans of station 2 held, each with a record of the same sequence: one that starts later, one that
starts 2^31 frames apart; and a mark of the station's own. -/
def clashing : List Mark :=
  let lock (origin : StationId) (seq : Byte) (orphan : Bool) (start tick : FrameNo) : Mark :=
    { key := { origin := origin, seq := seq, orphan := orphan }, kind := .lock, lanes := 0xFF
      start := start, fin := .closed (start + 10), trimmed := false, appliedAt := some tick }
  [lock 2 1 true 4410 4200, lock 2 1 false 4420 4300, lock 3 9 false 4430 4100, lock 2 2 true 4440 4400,
   lock 2 2 false (4440 + 0x80000000) 4500]

/-- In FULL, of a monitor and of a station that is none; and the station's own. -/
theorem test_hyps_HelloOrphansAndReannounces :
    (∀ id ∈ [(0 : StationId), 3],
      let s := readGoodOf (station .full 4400 5000) (.hello someHello) 0
      let s := (s.setMarks { s.marks with table := clashing }).setStartup { s.startup with id := id }
      (2 : StationId) ≠ 0 ∧ s.bus.activity = .judged (lineFrame 2 (.hello someHello) 0) true false
        ∧ s.startup.id ≠ 2 ∧ s.line.service.selects = true ∧ marksOk s.marks.table ∧ s.countersOk)
    ∧ (∀ x ∈ clashing, ∀ a, x.appliedAt = some a →
      -(2 ^ 30 : Int) < (a - 4400).toInt ∧ (a - 4400).toInt < 2 ^ 30)
    ∧ let s := sendingOf (station .full 4400 5000) (.hello someHello) 0
      let s := s.setMarks { s.marks with table := clashing }
      s.startup.id ≠ 0 ∧ s.bus.activity = .sending (lineFrame s.startup.id (.hello someHello) 0)
        ∧ s.line.service.selects = true ∧ marksOk s.marks.table
        ∧ (s.bus.queue.drop 1).all (fun f => !f.msg.isHello) = true := by
  refine ⟨?_, ?_, by decide, rfl, rfl, (by unfold marksOk; decide : marksOk clashing), rfl⟩
  · unfold marksOk State.countersOk; decide +kernel
  · have h : ∀ x ∈ clashing, x.appliedAt.all (fun a =>
        decide (-(2 ^ 30 : Int) < (a - 4400).toInt ∧ (a - 4400).toInt < 2 ^ 30)) = true := by decide
    intro x hx a ha
    have := h x hx
    rw [ha] at this
    simpa using this

/-- Both held orphans leave; by R1 the start past 2^31 is before the others. -/
theorem test_hyps_HelloOrphansAndReannounces_clauses :
    let s := readGoodOf (station .full 4400 5000) (.hello someHello) 0
    after (.objectionSlotEnd false 0 []) (s.setMarks { s.marks with table := clashing })
      (fun t => (t.marks.table.map (fun m => (m.key, m.start)), t.marks.counters.conflicts))
      = some ([({ origin := 2, seq := 2, orphan := true }, 4440 + 0x80000000),
          ({ origin := 2, seq := 1, orphan := true }, 4420), ({ origin := 3, seq := 9, orphan := false }, 4430)], 2) := by decide +kernel

/-- The marks are re-announced by their applied-at ticks. -/
theorem test_hyps_HelloOrphansAndReannounces_order :
    let s := readGoodOf (station .full 4400 5000) (.hello someHello) 0
    after (.objectionSlotEnd false 0 []) (s.setMarks { s.marks with table := clashing })
      (fun t => t.bus.queue.map (fun f => match f.msg with
          | .markOpen o => o.seq
          | _ => 0))
      = some [9, 1, 2] := by decide +kernel

theorem test_hyps_MarkTableKept :
    marksOk rich.marks.table ∧ startsNear rich.marks.table 92 ∧ tableOrdered rich.marks.table
      ∧ rich.phaseOk ∧ rich.settingsOk ∧ rich.spansOk ∧ ∃ t, step rich = .next t := by
  obtain ⟨-, a, b, -, c, -⟩ := test_hyps_ScheduleBoundsKept
  refine ⟨?_, ?_, ?_, a, b, c, ⟨_, rfl⟩⟩
  · unfold marksOk; decide
  · unfold startsNear; decide
  · unfold tableOrdered; decide

/-! #### Ingest and the delay memory -/

/-- The header of a cell, its check formed. -/
def headerOf (frame : FrameNo) (lane : Byte) (length : BitVec 32) : List Byte :=
  let b : List Byte := bytes32 frame ++ [lane, 0] ++ bytes32 length
  b ++ bytes16 (crc (bitsOfBytes b))

/-- A station in FULL at tick 690 that shows frame 90, with the cell of frame 100 in a state at its
index. -/
def holding (state : EntryState) : State :=
  let s := station .full 90 690
  s.setIngest { s.ingest with
    directory := [(100, { tag := 0, state := state, first := 0, count := 1, length := 5,
                          truncated := false, short := false })] }

/-- The verdicts of R81 in their order: the check; the lane; E itself, and one after it; one past the next
tick, and two; a cell held under the frame, and one damaged; a slot that another frame's cell holds. -/
theorem test_hyps_HeaderCutsAndDrops :
    (∀ e ∈ [EntryState.empty, .complete, .damaged], let s := holding e
      s.startup.phase ≠ .held ∧ s.line.service.selects = true ∧ s.ingest.current = none)
    ∧ (∃ c, receiving.ingest.current = some c ∧ c.received < c.stored)
    ∧ [List.replicate 12 0, headerOf 100 1 5, headerOf 90 0 5, headerOf 91 0 5, headerOf 691 0 5,
        headerOf 692 0 5].map (fun b => (holding .empty).verdict (readCellHeader b))
      = [.headerBad, .wrongLane, .late, .accept, .accept, .ahead]
    ∧ [EntryState.complete, .writing, .damaged].map
        (fun e => (holding e).verdict (readCellHeader (headerOf 100 0 5))) = [.dup, .dup, .accept]
    ∧ [EntryState.damaged, .freed].map (fun e =>
        let s := (holding e).setLine { (holding e).line with emit := some (100 + 8192 - 10) }
        (s.setClock { s.clock with tick := some (100 + 8192) }).verdict
          (readCellHeader (headerOf (100 + 8192) 0 5))) = [.ringFull .slotHeld, .accept] := by
  refine ⟨?_, ⟨_, rfl, by decide⟩, by decide +kernel, by decide +kernel, by decide +kernel⟩
  decide +kernel

/-- RING-FULL at one free page too few, not at as many as asked; and at a full list. -/
theorem test_hyps_HeaderCutsAndDrops_ringFull :
    [((15 : Nat), (0 : Nat)), (16, 8191), (16, 8192)].map (fun x =>
      let s := holding .empty
      (s.setMemory { s.memory with
        free := x.1, alloc := List.replicate x.2 { frame := 99, first := 0, count := 1 } }).verdict
          (readCellHeader (headerOf 100 0 4194304)))
      = [.ringFull .noPages, .accept, .ringFull .listFull] := by decide +kernel

theorem test_hyps_AcceptedCellEntered :
    let s := station .full 90 690
    s.startup.phase ≠ .held ∧ s.line.service.selects = true ∧ s.ingest.current = none
      ∧ s.verdict (readCellHeader goodHeader) = .accept
      ∧ s.verdict (readCellHeader (headerOf 100 0 0)) = .accept
      ∧ s.verdict (readCellHeader (headerOf 100 0 4194304)) = .accept := by decide +kernel

/-- A cell of 5 bytes with none received, and one with all. -/
theorem test_hyps_PayloadBytesGathered :
    ∀ n ∈ [0, 5],
      let c : CurrentCell :=
        { frame := 100, first := 0, count := 1, stored := 5, received := n, gathered := [] }
      let s := receiving.setIngest { receiving.ingest with current := some c }
      s.startup.phase ≠ .held ∧ s.line.service.selects = true ∧ s.ingest.current = some c
        ∧ (n = 0 ∨ n = 5 → c.gatherOk) := by
  unfold CurrentCell.gatherOk; decide

/-- The last write of a cell after the retention point, and one at it. -/
theorem test_hyps_PageWriteStoresPage :
    let w : PageWrite :=
      { frame := 100, first := 0, position := 1, bytes := [1, 2, 3, 4, 5], last := true }
    writing.ingest.writeQueue = w :: []
      ∧ pageAt writing.memory.bad w.first w.position w.position = some 0
      ∧ describes writing.ingest.directory w.frame w.first = true
      ∧ (dirGet writing.ingest.directory (dirIndex w.frame)).state = .writing
      ∧ writing.line.retention = some 90 ∧ atOrBefore 90 w.frame = true
      ∧ (writing.setLine { writing.line with emit := some 100 }).line.retention = some w.frame
      ∧ atOrBefore w.frame w.frame = true := by decide

/-- A cell held, one more asked of any size. -/
theorem test_hyps_RingLawKept :
    let s := writing.setPending [.pageWriteComplete]
    (badOk s.memory.bad ∧ s.phaseOk ∧ s.memory.ringOk ∧ s.cellsOk ∧ ∃ t, step s = .next t)
      ∧ s.memory.refusal 1 = none ∧ s.memory.refusal 64 = none := by
  refine ⟨⟨?_, ?_, ?_, ⟨?_, ?_, fun r h => by cases h⟩, ⟨_, rfl⟩⟩, by decide, by decide⟩
  · unfold badOk; decide
  · unfold State.phaseOk; decide
  · unfold DelayMemory.ringOk; decide
  · decide
  · decide

theorem test_hyps_ListsAndTablesKept :
    rich.listsBounded = true ∧ badOk rich.memory.bad ∧ rich.gatherOk ∧ rich.memoryWf = true
      ∧ (∃ t, step rich = .next t)
      ∧ (receiving.setPending [.cellPayloadBytes [1]]).gatherOk
      ∧ ∃ t, step (receiving.setPending [.cellPayloadBytes [1]]) = .next t := by
  refine ⟨by decide, ?_, ?_, by decide, ⟨_, rfl⟩, ?_, ⟨_, rfl⟩⟩
  · unfold badOk; decide
  · intro c h; cases h
  · intro c h; cases h; unfold CurrentCell.gatherOk; decide

/-! #### The output stage -/

/-- A station in FULL or BUILD at tick 111 that shows frame 99, with the cell of frame 100 complete or
damaged, listed or not, and that of its source frame 99 there or not. -/
def staged (sv : Service) (state : EntryState) (listed : Bool) (source : Option FrameNo) : State :=
  let s := smallStation sv 99 111
  let cell (st : EntryState) (p : Page) : DirEntry :=
    { tag := 0, state := st, first := p, count := 1, length := 5, truncated := false, short := false }
  ((s.setLine { s.line with source := source }).setIngest
    { s.ingest with directory := [(99, cell .complete 0), (100, cell state 1)] }).setMemory
      { s.memory with
        head := 2, free := 65534
        alloc := { frame := 99, first := 0, count := 1 }
          :: (if listed then [{ frame := 100, first := 1, count := 1 }] else []) }

/-- The states, and what the tick leaves of each: the staging, the cells sent and the fault record. The
hold of BUILD at a tick that is a multiple of 4 with its source frame and without, the frame found, one
not listed, one damaged with a source frame listed and with none, one missing, in LINEUP, and one not
listed with a source frame listed, with none found, with the emit frame as its own source, and with a
source frame not listed either. -/
def stagings : List (State × (Option (Bool × Bool) × Nat × Bool)) :=
  [(staged .build .complete true (some 99), (some (false, false), 0, false)),
   (staged .build .complete true none, (none, 1, false)),
   (staged .full .complete true (some 99), (some (false, false), 0, false)),
   (staged .full .complete false none, (none, 1, true)),
   (staged .full .damaged true (some 99), (some (false, true), 0, false)),
   (staged .full .damaged true none, (none, 1, false)),
   (staged .full .empty true (some 99), (some (true, false), 0, false)),
   (staged .full .empty true (some 98), (none, 1, false)),
   (staged .lineup .empty true none, (none, 1, false)),
   (staged .full .complete false (some 99), (some (false, true), 0, true)),
   (staged .full .complete false (some 98), (none, 1, true)),
   (staged .full .complete false (some 100), (none, 1, true)),
   (let s := staged .full .complete false (some 99)
    (s.setMemory { s.memory with head := 0, free := 65536, alloc := [] }, (none, 1, true)))]

theorem test_hyps_TickStagesItsFrame :
    ∀ x ∈ stagings, x.1.tickMade (.referencePulse 112 quietPanel) = some 112
      ∧ x.1.line.service.selects = true ∧ x.1.noneDue 112 ∧ x.1.output.staging = none
      ∧ x.1.memory.reading = none := by
  unfold State.noneDue; decide +kernel

theorem test_hyps_TickStagesItsFrame_clauses :
    stagings.map (fun x => after (.referencePulse 112 quietPanel) x.1
        (fun t => (t.output.staging.map (fun g => (g.missing, g.damaged)), t.output.link.length,
          t.memory.fault.isSome)))
      = stagings.map (fun x => some x.2) := by decide +kernel

/-- The read of a tick not over at the next. -/
theorem test_hyps_LateReadEnds :
    let s := reading .emitFrame
    s.tickMade (.referencePulse 701 quietPanel) = some 701 ∧ s.line.service.selects = true
      ∧ s.output.staging = some { record := someRecord, missing := false, damaged := false }
      ∧ s.countersOk := by
  unfold State.countersOk; decide +kernel

theorem test_hyps_ReadCompleteSendsCell :
    ∃ g r, (reading .emitFrame).output.staging = some g ∧ (reading .emitFrame).memory.reading = some r
      ∧ firstMismatch (reading .emitFrame).memory.pages r
        (pagesOf (reading .emitFrame).memory.bad r.first r.count) 1 = none :=
  ⟨_, _, rfl, rfl, by decide⟩

/-- The read of a source frame; of the emit frame with no source; and with a source to read in its
place. -/
theorem test_hyps_CheckFailListsPage :
    ∀ s ∈ [reading .sourceFrame, reading .emitFrame,
        let s := reading .emitFrame
        (s.setIngest { s.ingest with directory :=
            (99, { tag := 0, state := .complete, first := 1, count := 1, length := 5, truncated := false
                   short := false }) :: s.ingest.directory }).setLine { s.line with source := some 99 }
          |>.setMemory { s.memory with
            head := 2, free := 65534, alloc := { frame := 99, first := 1, count := 1 } :: s.memory.alloc }],
      ∃ g r, s.output.staging = some g ∧ s.memory.reading = some r ∧ 1 ≤ 1
        ∧ (pagesOf s.memory.bad r.first r.count)[1 - 1]? = some 0
        ∧ firstMismatch s.memory.pages r (pagesOf s.memory.bad r.first r.count) 1 = none
        ∧ ∀ z first count length cut, r.of = .emitFrame → s.line.source = some z →
          lookup s.ingest.directory z = .hit first count length cut →
          z ≠ r.frame ∧ mapCheck s.memory.alloc z first count = true := by
  intro s hs
  simp only [List.mem_cons, List.not_mem_nil, or_false] at hs
  rcases hs with rfl | rfl | rfl
  · exact ⟨_, _, rfl, rfl, by decide, by decide, by decide, fun z first count length cut h => by cases h⟩
  · exact ⟨_, _, rfl, rfl, by decide, by decide, by decide, fun z first count length cut _ h => by cases h⟩
  · refine ⟨_, _, rfl, rfl, by decide, by decide, by decide, fun z first count length cut _ h h2 => ?_⟩
    cases h; cases h2; decide

/-- A ready cell behind one that is not; none ready; and the bytes of the back cell. -/
theorem test_hyps_BypassPassesCells :
    let s := station .bypass 0 700
    let c : BypassCell :=
      { frame := 699, lane := 0, declared := 5, stored := 5, payload := [1], truncated := false
        complete := false, ready := false }
    let r := { c with payload := [1, 2, 3, 4, 5], complete := true, ready := true }
    s.startup.phase ≠ .held ∧ s.line.service = .bypass
      ∧ s.tickMade (.referencePulse 701 quietPanel) = some 701
      ∧ [r, c] = [] ++ r :: [c] ∧ r.ready = true ∧ [c].all (fun y => !y.ready) = true
      ∧ [r, c] = [r] ++ [c] := by decide

/-- In BYPASS a tick sends the ready cell, and the next one a missing one. -/
theorem test_hyps_BypassPassesCells_clauses :
    let s := station .bypass 0 700
    let s := s.setOutput { s.output with bypass :=
      [{ frame := 699, lane := 0, declared := 5, stored := 5, payload := [1, 2, 3, 4, 5], truncated := false
         complete := true, ready := true },
       { frame := 700, lane := 0, declared := 5, stored := 5, payload := [1], truncated := false
         complete := false, ready := false }] }
    after (.referencePulse 701 quietPanel) s
        (fun t => (t.output.link.map (fun c => (c.emit, c.length)), t.output.bypass.length))
      = some ([(699, 5)], 1) := by decide +kernel

/-! #### The cue bus -/

/-- The idle line; a start, and the empty queue; a head not yet attempted, and an attempted one. -/
theorem test_hyps_FrameStartAndArbitration :
    State.reset.startup.phase ≠ .held
    ∧ (∃ f rest, rich.bus.queue = f :: rest ∧ rich.bus.activity = .quiet ∧ rich.bus.tracking = .tracking
      ∧ rich.startup.id ≠ 0 ∧ rich.line.service ≠ .test)
    ∧ State.reset.bus.queue = []
    ∧ ∀ n ∈ [0, 1], ∃ f, (sendingOf (station .full 100 700) someNotice n).bus.activity = .sending f :=
  ⟨by decide, ⟨_, _, rfl, rfl, rfl, by decide, by decide⟩, rfl, fun _ _ => ⟨_, rfl⟩⟩

/-- A good frame; a bad one at a monitor; bad ones at runs 14 and 15 of a station that objects. -/
theorem test_hyps_FrameTestJudges :
    let s := station .full 100 700
    (s.bus.tracking = .tracking ∧ (s.bus.activity = .quiet ∨ s.bus.activity = .reading))
      ∧ frameGood (lineFrame 2 .realign 3) = true ∧ frameGood (lineFrame 2 .realign 0) = false
      ∧ (s.setStartup { s.startup with id := 0 }).mayTransmit = false
      ∧ s.mayTransmit = true ∧ s.bus.suspect = false
      ∧ (s.setBus { s.bus with objectionRun := 14 }).bus.objectionRun < 15
      ∧ 15 ≤ (s.setBus { s.bus with objectionRun := 15 }).bus.objectionRun := by decide +kernel

/-- The third attempt; the first clash since reset, and a later one. -/
theorem test_hyps_AttemptCountedAndHeld :
    let s := sendingOf (station .full 100 700) someNotice 2
    (∃ f g, s.bus.activity = .sending f ∧ s.bus.queue = g :: [] ∧ s.bus.attempts < 3)
      ∧ s.bus.clashSeen = false ∧ s.mayTransmit = true ∧ s.bus.queue.length < 8
      ∧ (s.setBus { s.bus with clashSeen := true }).bus.clashSeen = true :=
  ⟨⟨_, _, rfl, rfl, by decide⟩, rfl, by decide, by decide, rfl⟩

/-- For a NOTICE, a REPORT, the station's own MARK-OPEN, and a HELLO. -/
theorem test_hyps_FourthAttemptAbandoned :
    ∀ m ∈ [someNotice, .report (List.replicate 17 0), .markOpen someCover, (station .full 100 700).helloMsg],
      let s := sendingOf (station .full 100 700) m 3
      (∃ f g rest, s.bus.activity = .sending f ∧ s.bus.attempts = 3 ∧ s.bus.queue = g :: rest
        ∧ g.msg = m ∧ rest.length < 8) ∧ s.marks.reannounce = [] ∧ s.mayTransmit = true := by
  intro m _
  exact ⟨⟨_, _, _, rfl, rfl, rfl, rfl, (by decide : 0 < 8)⟩, rfl, rfl⟩

/-- Nothing takes the place of a NOTICE; a notice that of the others. -/
theorem test_hyps_FourthAttemptAbandoned_clauses :
    [someNotice, .markOpen someCover].map (fun m =>
      after (.objectionSlotEnd true 0 []) (sendingOf (station .full 100 700) m 3) (·.bus.queue.length))
      = [some 0, some 1] := by decide +kernel

/-- A NOTICE, a mark frame, and a HELLO. -/
theorem test_hyps_UndrivenFrameSent :
    ∀ m ∈ [someNotice, .markOpen someCover, .hello someHello],
      let s := sendingOf (station .full 100 700) m 1
      ∃ g rest, s.bus.queue = g :: rest ∧ s.bus.activity = .sending (s.startedFrame g)
        ∧ frameGood (s.startedFrame g) = true ∧ s.marks.reannounce = [] ∧ s.marks.table = [] := by
  intro m hm
  refine ⟨_, _, rfl, rfl, ?_, rfl, rfl⟩
  simp only [List.mem_cons, List.not_mem_nil, or_false] at hm
  rcases hm with rfl | rfl | rfl <;> decide +kernel

/-- A frame to every station, and one to a target. -/
theorem test_hyps_CueFramesReadBackAndPass :
    (2 : StationId) ≠ 0 ∧ (someCover.origin ≠ 0 ∧ (someCover.kind = .dump → someCover.fin ≠ none))
      ∧ (4 : BitVec 4).toNat ≤ 4 ∧ (3 : StationId) ≠ 0 := by decide

/-- A station with frames queued; and a monitor, which may not transmit, at a tick. -/
theorem test_hyps_QueueAndSilenceKept :
    (rich.bus.bounded = true ∧ rich.bus.ordered ∧ ∃ t, step rich = .next t)
    ∧ let s := (station .full 100 700).setStartup { (station .full 100 700).startup with id := 0 }
      let s := s.setPending [.referencePulse 701 quietPanel]
      s.heldOk ∧ s.phaseOk ∧ s.mayTransmit = false ∧ s.silentWhenBarred ∧ s.objectionRunOk
        ∧ ∃ t, step s = .next t := by
  refine ⟨⟨by decide, ?_, ⟨_, rfl⟩⟩, ?_, ?_, by decide, ?_, ?_, ⟨_, rfl⟩⟩
  · unfold BusController.ordered TxFrame.ahead; decide
  · intro h; cases h
  · unfold State.phaseOk; decide
  · intro _; exact ⟨rfl, rfl, fun f good h => by cases h⟩
  · unfold State.objectionRunOk; decide

/-- The MARK-OPEN of a press of the station's own, with the line's open key standing. -/
def pressed : State :=
  let s := station .full 100 700
  s.setPanel { s.panel with coverKey := some { origin := 3, seq := 0, orphan := false } }

/-- A station with frames queued, numbered as they were accepted; the head held or not. -/
def queued (l : List CueMsg) (attempts : Nat) : State :=
  pressed.setBus { pressed.bus with
    attempts := attempts
    queue := l.mapIdx (fun i m => { msg := m, target := 0, stamp := i + 1 }) }

/-- A BEACON of a tick in BYPASS. -/
def beaconAt (h : FrameNo) : CueMsg :=
  .beacon { tick := h, emit := 0, delay := 0, service := 6, removed := 0, cueCount := 0, digest := 0 }

/-- The MARK-OPEN of the open key. -/
def ownOpen : CueMsg := .markOpen { someCover with origin := 3, seq := 0 }

/-- What an offer comes to: the answer, the kinds and stamps queued, the discards counted, HELLO-owed, and
whether the open key stands. -/
def offered (x : State × CueMsg) : Bool × List (Nat × Nat) × Nat × Bool × Bool :=
  let r := x.1.offer x.2 0
  (r.2, r.1.bus.queue.map (fun f => (f.msg.kind.toNat, f.stamp)), r.1.bus.counters.queueDiscards,
    r.1.bus.helloOwed, r.1.panel.coverKey.isSome)

/-- Every answer that the capacity rule gives, at the bounds of the queue: at a monitor; a BEACON for one
queued, and for one held; the eighth frame; a ninth with no frame of a higher priority number, and with
the youngest of several, a held head apart; a HELLO lost; an own MARK-OPEN lost with its MARK-CLOSE waiting,
and with none. -/
theorem test_hyps_QueueAndSilenceKept_offer :
    pressed.marks.reannounce = [] ∧
    ([((queued [] 0).setStartup { pressed.startup with id := 0 }, someNotice),
      (queued [beaconAt 1, someNotice] 0, beaconAt 2), (queued [beaconAt 1, someNotice] 1, beaconAt 2),
      (queued (beaconAt 1 :: List.replicate 6 someNotice) 0, ownOpen),
      (queued (List.replicate 8 someNotice) 0, someNotice),
      (queued (List.replicate 8 someNotice) 1, .sessionStart 9),
      (queued (List.replicate 7 .restart ++ [.hello someHello]) 0, .realign),
      (queued (List.replicate 6 .restart ++ [.markClose 3 0 9, ownOpen]) 0, .restart),
      (queued (List.replicate 7 .restart ++ [ownOpen]) 0, .restart)].map offered)
      = [(false, [], 0, false, true), (true, [(2, 3), (12, 2)], 0, false, true),
         (false, [(2, 1), (12, 2)], 1, false, true),
         (true, (3, 8) :: (2, 1) :: (List.range 6).map (fun i => (12, i + 2)), 0, false, true),
         (false, (List.range 8).map (fun i => (12, i + 1)), 0, false, true),
         (true, (12, 1) :: (6, 9) :: (List.range 6).map (fun i => (12, i + 2)), 1, false, true),
         (true, (List.range 7).map (fun i => (9, i + 1)) ++ [(8, 9)], 1, true, true),
         (true, (List.range 6).map (fun i => (9, i + 1)) ++ [(9, 9), (12, 10)], 1, false, false),
         (true, (List.range 7).map (fun i => (9, i + 1)) ++ [(9, 9)], 1, false, false)] :=
  ⟨rfl, by decide +kernel⟩

/-! #### Peers -/

/-- Unheard for 3 B, for one less, for 16 B, and for one less. -/
theorem test_hyps_RosterEntryAges :
    ∀ x ∈ [(625 : FrameNo), 626, 300, 301],
      let s := knowing (station .full 100 700) (peerTwo x)
      s.startup.config = some defaultSettings ∧ s.clock.tick = some 700
        ∧ findPeer s.peers.roster 2 = some (peerTwo x) ∧ (peerTwo x).lastHeard = some x := by
  intro x _; exact ⟨rfl, rfl, rfl, rfl⟩

/-- Entries of stations 4 on, of which the first two are in ALIGN-FAULT and were last heard together. -/
def others (n : Nat) : List Peer :=
  (List.range n).map (fun i =>
    { newPeer (BitVec.ofNat 5 (i + 4)) (some (if i < 2 then 600 else 690)) with alignFault := decide (i < 2) })

/-- Of a station in the roster, of one not yet in a roster of 14, and of one not in a full roster. -/
theorem test_hyps_HelloRenewsRosterEntry :
    ∀ r ∈ [[peerTwo 690], others 14, others 15],
      let s := readGoodOf ((station .full 100 700).setRoster r) (.hello someHello) 0
      (2 : StationId) ≠ 0 ∧ s.hasReadGood (lineFrame 2 (.hello someHello) 0) ∧ s.line.service ≠ .test
        ∧ (s.peers.roster.map (·.id)).Nodup ∧ s.startup.id ≠ 0 ∧ s.bus.queue.length < 7
        ∧ s.marks.table = [] := by
  intro r hr
  simp only [List.mem_cons, List.not_mem_nil, or_false] at hr
  rcases hr with rfl | rfl | rfl <;>
    exact ⟨by decide, ⟨rfl, by decide⟩, by decide, by decide, by decide, by decide, rfl⟩

/-- The ids of the roster that each leaves, and the details of its notices. -/
theorem test_hyps_HelloRenewsRosterEntry_clauses :
    [[peerTwo 690], others 14, others 15].map (fun r =>
      after (.objectionSlotEnd false 0 []) (readGoodOf ((station .full 100 700).setRoster r)
          (.hello { someHello with digest := 7 }) 0)
        (fun t => (t.peers.roster.map (·.id.toNat), t.bus.queue.map (fun f => match f.msg with
          | .notice n => (n.code.toNat, n.detail.toNat)
          | _ => (0, 0)))))
      = [some ([2], [(12, 0x0201), (13, 0x0201)]),
         some (2 :: (List.range 14).map (· + 4), [(13, 0x0201)]),
         some (2 :: (List.range 14).map (· + 5), [(12, 0x0402), (13, 0x0201)])] := by decide +kernel

theorem test_hyps_BeaconCompareSetsAlignFault :
    let x : HistoryEntry := { tick := 700, emit := 100, delay := 600, removed := 0 }
    let s := knowing (station .full 100 700) (peerTwo 690)
    let s := readGoodOf (s.setLine { s.line with history := [x] }) (.beacon someBeacon) 0
    (2 : StationId) ≠ 0 ∧ s.hasReadGood (lineFrame 2 (.beacon someBeacon) 0)
      ∧ s.line.service.inSession = true ∧ findPeer s.peers.roster 2 = some (peerTwo 690)
      ∧ (s.peers.roster.map (·.id)).Nodup ∧ someBeacon.digest = s.eff.digest
      ∧ (someBeacon.service = 2 ∨ someBeacon.service = 3 ∨ someBeacon.service = 4)
      ∧ historyAt s.line.history someBeacon.tick = some x :=
  ⟨by decide, ⟨rfl, by decide⟩, by decide, by decide, by decide, by decide, by decide, by decide⟩

/-- At tick 703 of station 3 with B 25, in FULL and in BYPASS, with a HELLO owed and six frames queued; and
at tick 704. No session is held, so none is due (`noneDue_of_empty`). -/
theorem test_hyps_BeaconFormedAtTick :
    ∀ x ∈ [(Service.full, (703 : FrameNo)), (.bypass, 703), (.full, 704)],
      let s := station x.1 103 (x.2 - 1)
      let s := s.setBus { s.bus with
        helloOwed := true, queue := List.replicate 6 { msg := someNotice, target := 0, stamp := 1 } }
      s.tickMade (.referencePulse x.2 quietPanel) = some x.2 ∧ s.startup.id ≠ 0 ∧ s.line.service ≠ .test
        ∧ s.line.sessions = [] ∧ panelLevels (.referencePulse x.2 quietPanel) = some quietPanel
        ∧ s.panel.last = none ∧ s.cfg.beacon = 25
        ∧ (s.bus.queue.all (fun f => !f.msg.isBeacon)) = true ∧ s.bus.queue.length < 7 := by decide

theorem test_hyps_RosterKept :
    rich.heldOk ∧ rich.phaseOk ∧ rich.lineFrameOk ∧ rich.rosterOk ∧ ∃ t, step rich = .next t := by
  refine ⟨?_, ?_, True.intro, ?_, ⟨_, rfl⟩⟩
  · unfold State.heldOk; decide
  · unfold State.phaseOk; decide
  · unfold State.rosterOk; decide

/-! #### Panel and reports -/

/-- The first sample, and a later one; the tick of the absence timer. -/
theorem test_hyps_PanelSampledAtTick :
    let s := station .full 100 700
    s.tickMade (.referencePulse 701 quietPanel) = some 701 ∧ s.panel.last = none
      ∧ panelLevels (.referencePulse 701 quietPanel) = some quietPanel
      ∧ s.tickMade (.absenceTimerExpiry quietPanel) = some 701
      ∧ (s.setPanel { s.panel with last := some quietPanel }).panel.last = some quietPanel := by decide

/-- Section 3.9: with its levels first seen a press forms nothing, and at the next tick it does. -/
theorem test_hyps_PanelSampledAtTick_clauses :
    let now := { quietPanel with cover := true }
    let s := smallStation .full 91 99
    after (.referencePulse 100 now) s (fun t => (t.bus.queue.length, t.panel.coverKey)) = some (0, none)
      ∧ after (.referencePulse 100 now) (s.setPanel { s.panel with last := some quietPanel })
          (fun t => (t.bus.queue.length, t.panel.coverKey))
        = some (1, some { origin := 3, seq := 0, orphan := false }) := by decide +kernel

/-- At the full delay the DUMP has its length; at a delay of the guard it would be empty. -/
theorem test_hyps_PressFormsMark :
    ∀ x ∈ [(Service.full, (4400 : FrameNo), false), (Service.build, 4996, true)],
      let s := station x.1 x.2.1 5000
      s.startup.id ≠ 0 ∧ s.line.service.inSession = true ∧ s.line.emit = some x.2.1
        ∧ s.clock.tick = some 5000 ∧ s.marks.table.length + ownOpens s.bus.queue < 32
        ∧ s.bus.queue.length < 8
        ∧ atOrBefore (earlier (x.2.1 + BitVec.ofNat 32 s.eff.guard + BitVec.ofNat 32 s.eff.dumpLength) 5000)
          (x.2.1 + BitVec.ofNat 32 s.eff.guard) = x.2.2 := by decide +kernel

/-- A key to release, with room and with a queue of eight; a START taken in LINEUP and refused in FULL; a
mark press in LINEUP, and one with the table full. -/
theorem test_hyps_ReleasesAndOtherPresses :
    let s := station .full 100 700
    let key : MarkKey := { origin := 3, seq := 0, orphan := false }
    let k := s.setPanel { s.panel with coverKey := some key }
    let e := s.setBus { s.bus with queue := List.replicate 8 { msg := .realign, target := 2, stamp := 1 } }
    (k.panel.coverKey = some key ∧ k.mayTransmit = true ∧ k.bus.queue.length < 8 ∧ k.panel.lockKey = none)
      ∧ (8 ≤ e.bus.queue.length ∧ ∀ f ∈ e.bus.freePart, f.msg.priority ≤ 2)
      ∧ ((station .lineup 699 700).mayTransmit = true ∧ (station .lineup 699 700).line.service = .lineup)
      ∧ (s.startup.id ≠ 0 ∧ (station .lineup 699 700).line.service.inSession = false)
      ∧ s.line.service.inSession = true
      ∧ 32 ≤ (lockTable 32).length + ownOpens s.bus.queue := by decide +kernel

/-- A release with a key, a START press in LINEUP and in FULL, and a DUMP press in LINEUP, each queue one
frame. -/
theorem test_hyps_ReleasesAndOtherPresses_clauses :
    let s := station .full 100 700
    let k := s.setPanel { s.panel with coverKey := some { origin := 3, seq := 0, orphan := false } }
    (k.releaseMark .cover 700).bus.queue.map (·.msg) = [.markClose 3 0 715]
      ∧ ((station .lineup 699 700).pressSession .start 700).bus.queue.map (·.msg) = [.sessionStart 703]
      ∧ (s.pressSession .start 700).bus.queue.map (·.msg)
        = [.notice { code := 0x01, tick := 700, frame := 100, detail := 0x0401 }]
      ∧ ((station .lineup 699 700).pressMark .dump 700).bus.queue.map (·.msg)
        = [.notice { code := 0x01, tick := 700, frame := 699, detail := 0x0101 }] := by decide +kernel

theorem test_hyps_QueryAnsweredWithReport :
    ∀ g ∈ [(0 : BitVec 4), 1, 2, 3, 4], ∀ part,
      let s := readGoodOf (station .full 100 700) (.query g part) 3
      (2 : StationId) ≠ 0 ∧ s.startup.id ≠ 0 ∧ g.toNat ≤ 4
        ∧ s.hasReadGood (lineFrame 2 (.query g part) s.startup.id) ∧ s.line.service ≠ .test
        ∧ s.bus.queue.length < 7 := by
  intro g hg part
  simp only [List.mem_cons, List.not_mem_nil, or_false] at hg
  rcases hg with rfl | rfl | rfl | rfl | rfl <;> cases part <;>
    exact ⟨by decide, by decide, by decide, ⟨rfl, by decide⟩, by decide, by decide⟩

/-! #### Whole-machine invariants -/

theorem test_hyps_ControlStateKept :
    rich.clockOk ∧ rich.phaseOk ∧ rich.heldOk ∧ rich.joinOk ∧ rich.scheduleOk
      ∧ rich.referenceOk ∧ rich.talliesOk ∧ ∃ t, step rich = .next t := by
  obtain ⟨a, b, -, c, -, d, -⟩ := test_hyps_ScheduleBoundsKept
  refine ⟨a, b, ?_, c, d, ?_, ?_, ⟨_, rfl⟩⟩
  · unfold State.heldOk; decide
  · intro h; cases h
  · unfold State.talliesOk; decide

/-- A step that takes no reset, and one that does. -/
theorem test_hyps_CountersSaturate :
    rich.countersOk ∧ (∃ t, step rich = .next t)
      ∧ (∀ c rest, rich.pending = c :: rest → rich.resetBy c = false)
      ∧ rich.resetBy (.resetAsserted []) = true := by
  refine ⟨?_, ⟨_, rfl⟩, fun c rest h => ?_, rfl⟩
  · unfold State.countersOk; decide
  · cases h; rfl

end Sys2Proof.Tests
end

section
/-! SUPPORT. Ingest (04_ingest_and_the_cell_directory.md): what a header does to the current cell, the
tests of R81 in the statements' words, and the entry of an accepted cell; with them O32 and O33. -/

namespace Sys2Proof.Machine

/-! ### The commands, by service state -/

/-- TEST and BYPASS are the states in which the delay line makes no selection (R13). -/
theorem Service.selects_iff {x : Service} : x.selects = true ↔ x ≠ .test ∧ x ≠ .bypass := by
  cases x <;> decide

/-- A header in LINEUP or a delaying state ends the current cell and is then tested (R81, R89). -/
theorem exec_cellHeaderArrival_of_selects {s : State} {header : List Byte} (hp : s.startup.phase ≠ .held)
    (hs : s.line.service.selects = true) :
    exec (.cellHeaderArrival header) s = .next (s.endCurrent.takeHeader (readCellHeader header)) := by
  change execCellHeaderArrival header s = _
  obtain ⟨htest, hbypass⟩ := Service.selects_iff.mp hs
  unfold execCellHeaderArrival
  rw [if_neg hp]
  split
  case h_1 h => exact absurd h htest
  case h_2 h => exact absurd h hbypass
  all_goals rfl

/-- Payload bytes in LINEUP or a delaying state go to the current cell (R88). -/
theorem exec_cellPayloadBytes_of_selects {s : State} {bytes : List Byte} (hp : s.startup.phase ≠ .held)
    (hs : s.line.service.selects = true) :
    exec (.cellPayloadBytes bytes) s = .next (s.takeBytes bytes) := by
  change execCellPayloadBytes bytes s = _
  obtain ⟨htest, hbypass⟩ := Service.selects_iff.mp hs
  unfold execCellPayloadBytes
  rw [if_neg hp]
  split
  case h_1 h => exact absurd h htest
  case h_2 h => exact absurd h hbypass
  all_goals rfl

/-- A header in BYPASS (R80). -/
theorem exec_cellHeaderArrival_of_bypass {s : State} {header : List Byte} (hp : s.startup.phase ≠ .held)
    (hs : s.line.service = .bypass) :
    exec (.cellHeaderArrival header) s = .next (s.bypassHeader (readCellHeader header)) := by
  change execCellHeaderArrival header s = _
  simp only [execCellHeaderArrival, if_neg hp, hs]

/-- Payload bytes in BYPASS (R125). -/
theorem exec_cellPayloadBytes_of_bypass {s : State} {bytes : List Byte} (hp : s.startup.phase ≠ .held)
    (hs : s.line.service = .bypass) :
    exec (.cellPayloadBytes bytes) s
      = .next (s.setOutput { s.output with bypass := bypassBytes s.output.bypass bytes }) := by
  change execCellPayloadBytes bytes s = _
  simp only [execCellPayloadBytes, if_neg hp, hs]

/-! ### A cell cut short (R89) -/

/-- The ingest as a header leaves it before its own tests, from the current cell. -/
def Ingest.cutShort (g : Ingest) (c : CurrentCell) : Ingest :=
  if c.received < c.stored then
    { g with
      current := none
      writeQueue := g.writeQueue ++
        [{ frame := c.frame, first := c.first, position := c.received / 65536 + 1
           bytes := c.gathered, last := true }]
      directory := shortEntry g.directory c.frame c.first
      counters := { g.counters with short := bump g.counters.short } }
  else { g with current := none }

theorem State.endCurrent_of_none {s : State} (h : s.ingest.current = none) : s.endCurrent = s := by
  simp only [State.endCurrent, h]

theorem State.endCurrent_of_some {s : State} {c : CurrentCell} (h : s.ingest.current = some c) :
    s.endCurrent = s.setIngest (s.ingest.cutShort c) := by
  simp only [State.endCurrent, h, Ingest.cutShort]
  split <;> rfl

@[simp] theorem Ingest.cutShort_current (g : Ingest) (c : CurrentCell) :
    (g.cutShort c).current = none := by
  unfold Ingest.cutShort
  split <;> rfl

/-- With the current cell ended, a header is taken as it is in the state so left. -/
theorem exec_cellHeaderArrival_of_current {s : State} {header : List Byte} {c : CurrentCell}
    (hp : s.startup.phase ≠ .held) (hs : s.line.service.selects = true)
    (hc : s.ingest.current = some c) :
    exec (.cellHeaderArrival header) s
      = exec (.cellHeaderArrival header) (s.setIngest (s.ingest.cutShort c)) := by
  have hend : (s.setIngest (s.ingest.cutShort c)).endCurrent = s.setIngest (s.ingest.cutShort c) :=
    State.endCurrent_of_none (Ingest.cutShort_current _ _)
  rw [exec_cellHeaderArrival_of_selects hp hs, State.endCurrent_of_some hc,
    exec_cellHeaderArrival_of_selects (s := s.setIngest (s.ingest.cutShort c)) hp hs, hend]

/-- With no current cell, a header is tested at once (R81). -/
theorem exec_cellHeaderArrival_of_idle {s : State} {header : List Byte} (hp : s.startup.phase ≠ .held)
    (hs : s.line.service.selects = true) (hc : s.ingest.current = none) :
    exec (.cellHeaderArrival header) s = .next (s.takeHeader (readCellHeader header)) := by
  rw [exec_cellHeaderArrival_of_selects hp hs, State.endCurrent_of_none hc]

/-! ### The tests (R81) -/

theorem lateFrame_iff {emit : Option FrameNo} {x : FrameNo} :
    lateFrame emit x = true ↔ ∃ e, emit = some e ∧ before e x = false := by
  cases emit <;> simp [lateFrame]

theorem aheadFrame_iff {tick : Option FrameNo} {x : FrameNo} :
    aheadFrame tick x = true ↔ ∀ h, tick = some h → atOrBefore x (h + 1) = false := by
  cases tick <;> simp [aheadFrame]

theorem isDup_iff {d : Sparse DirEntry} {x : FrameNo} :
    isDup d x = true ↔ (dirGet d (dirIndex x)).tag = dirTag x
      ∧ ((dirGet d (dirIndex x)).state = .writing ∨ (dirGet d (dirIndex x)).state = .complete) := by
  simp only [isDup, Bool.and_eq_true, Bool.or_eq_true, decide_eq_true_eq]

theorem slotHeld_iff {d : Sparse DirEntry} {x : FrameNo} :
    slotHeld d x = true ↔ (dirGet d (dirIndex x)).tag ≠ dirTag x
      ∧ ((dirGet d (dirIndex x)).state = .writing ∨ (dirGet d (dirIndex x)).state = .complete
        ∨ (dirGet d (dirIndex x)).state = .damaged) := by
  simp only [slotHeld, Bool.and_eq_true, Bool.or_eq_true, decide_eq_true_eq, or_assoc]

/-- The page count is the stored length over 65,536, rounded up, and at least 1 (R83). -/
theorem pageCount_eq (stored : Nat) : pageCount stored = max 1 ((stored + 65535) / 65536) := by
  change max 1 (stored / 65536 + if stored % 65536 = 0 then 0 else 1) = _
  split <;> omega

/-- Step 7's causes in their order: the slot, the list, the pages (R84, R99). -/
theorem State.spaceFor_eq (s : State) (x : FrameNo) (count : Nat) :
    s.spaceFor x count =
      if slotHeld s.ingest.directory x = true then some .slotHeld
      else if 8192 ≤ s.memory.alloc.length then some .listFull
      else if s.memory.free < count then some .noPages
      else none := rfl

/-- What the tests decide, each met after those before it have passed. -/
theorem State.verdict_eq (s : State) (h : CellHeader) :
    s.verdict h =
      if h.good = false then .headerBad
      else if h.lane ≠ s.cfg.lane then .wrongLane
      else if lateFrame s.line.emit h.frame = true then .late
      else if aheadFrame s.clock.tick h.frame = true then .ahead
      else if isDup s.ingest.directory h.frame = true then .dup
      else if slotHeld s.ingest.directory h.frame = true then .ringFull .slotHeld
      else if 8192 ≤ s.memory.alloc.length then .ringFull .listFull
      else if s.memory.free < pageCount (storedLength s.cfg.cellPages h.length) then .ringFull .noPages
      else .accept := by
  simp only [State.verdict, State.spaceFor_eq, Bool.not_eq_true']
  by_cases hslot : slotHeld s.ingest.directory h.frame = true
  · simp only [if_pos hslot]
  · by_cases hlist : 8192 ≤ s.memory.alloc.length
    · simp only [if_neg hslot, if_pos hlist]
    · by_cases hpages : s.memory.free < pageCount (storedLength s.cfg.cellPages h.length)
      · simp only [if_neg hslot, if_neg hlist, if_pos hpages]
      · simp only [if_neg hslot, if_neg hlist, if_neg hpages]

/-! ### What a verdict does -/

/-- The truncated counter is the only thing that counting a cut payload can change (R83). -/
theorem State.countTruncated_eq (s : State) (length : Nat) :
    s.countTruncated length = s.setIngestCounters { s.ingest.counters with
      truncated := if s.cfg.cellPages * 65536 < length then bump s.ingest.counters.truncated
        else s.ingest.counters.truncated } := by
  by_cases h : s.cfg.cellPages * 65536 < length
  · rw [if_pos h]
    exact if_pos (decide_eq_true h)
  · rw [if_neg h]
    exact if_neg (mt of_decide_eq_true h)

/-- A RING-FULL drop sets the run flag, counts, and forms its notice if the flag was clear (R84). -/
theorem State.takeHeader_of_ringFull {s : State} {h : CellHeader} {cause : Refused}
    (hv : s.verdict h = .ringFull cause) :
    s.takeHeader h =
      let u := s.setIngest { s.ingest with
        ringFullRun := true
        counters := { s.ingest.counters with
          ringFull := bump s.ingest.counters.ringFull
          truncated := if s.cfg.cellPages * 65536 < h.length then bump s.ingest.counters.truncated
            else s.ingest.counters.truncated } }
      if s.ingest.ringFullRun then u else u.notice 0x11 s.clock.tick h.frame cause.code := by
  simp only [State.takeHeader, hv, State.countTruncated_eq]
  rfl

/-- An accepted cell, with its truncation counted, is entered (R83, R85). -/
theorem State.takeHeader_of_accept {s : State} {h : CellHeader} (hv : s.verdict h = .accept) :
    s.takeHeader h = (s.countTruncated h.length).acceptCell h := by
  simp only [State.takeHeader, hv]

/-! ### The statements -/

/-- Settles O32: the current cell is ended before the header is looked at, and the branches of the
statement are those of `State.verdict_eq`. -/
theorem headerCutsAndDrops : Obligations.HeaderCutsAndDrops := by
  intro s header hp hs
  refine ⟨fun c hc => exec_cellHeaderArrival_of_current hp hs hc, fun hc => ?_⟩
  intro b entry own stored count k drop full
  have hexec : exec (.cellHeaderArrival header) s = .next (s.takeHeader b) :=
    exec_cellHeaderArrival_of_idle hp hs hc
  have hv := s.verdict_eq b
  have hcount : pageCount (storedLength s.cfg.cellPages b.length) = count := pageCount_eq _
  have hdup : isDup s.ingest.directory b.frame = true
      ↔ own ∧ (entry.state = .writing ∨ entry.state = .complete) := isDup_iff
  have hslot : slotHeld s.ingest.directory b.frame = true
      ↔ ¬ own ∧ (entry.state = .writing ∨ entry.state = .complete ∨ entry.state = .damaged) := slotHeld_iff
  simp only [lateFrame_iff, aheadFrame_iff, hdup, hslot, hcount] at hv
  rw [hexec]
  -- Five counted drops, three RING-FULL causes, and the acceptance.
  revert hv
  repeat' split
  case isTrue | isTrue | isTrue | isTrue | isTrue =>
    intro hv
    simp only [State.takeHeader, hv]
    rfl
  case isTrue | isTrue | isTrue =>
    intro hv
    rw [State.takeHeader_of_ringFull hv]
    rfl
  case isFalse => exact id

/-- Settles O33: the write to the directory is read back, and the rest is what `State.acceptCell` sets. -/
theorem acceptedCellEntered : Obligations.AcceptedCellEntered := by
  intro s header h stored count hp hs hc hv
  refine ⟨(s.countTruncated h.length).acceptCell h, ?_, ?_, fun i hi => ?_, ?_⟩
  · rw [exec_cellHeaderArrival_of_idle hp hs hc, State.takeHeader_of_accept hv]
  · rw [State.acceptCell_directory, State.countTruncated_eq]
    exact dirGet_set_same (by simp [acceptedEntry])
  · rw [State.acceptCell_directory, State.countTruncated_eq]
    exact dirGet_set_other hi
  · rw [State.countTruncated_eq]
    exact ⟨rfl, rfl, rfl, rfl, rfl, rfl, rfl, rfl, rfl, rfl⟩

end Sys2Proof.Machine
end

section
/-! SUPPORT. The gathering of payload bytes into page writes (R88): one run of bytes, and their sequence;
with it O34. -/

namespace Sys2Proof.Machine

/-! ### What the gathering of some bytes comes to -/

/-- The page write at a place of those that some bytes enter: a full page or the cell's last, at its
position (R88). -/
structure PageWrite.Entered (w : PageWrite) (c c' : CurrentCell) (i n : Nat) : Prop where
  frame : w.frame = c.frame
  first : w.first = c.first
  position : w.position = c.received / 65536 + 1 + i
  last : w.last = true ↔ c'.received = c.stored ∧ i + 1 = n
  full : w.last = false → w.bytes.length = 65536
  fits : w.bytes.length ≤ 65536
  nonempty : w.bytes ≠ []

/-- Bytes arrived for a cell gathered so far make it another, with page writes entered; no byte is lost or
made (R88). -/
structure Gathers (c : CurrentCell) (bytes : List Byte) (c' : CurrentCell) (entered : List PageWrite) :
    Prop where
  ok : c'.gatherOk
  frame : c'.frame = c.frame
  first : c'.first = c.first
  stored : c'.stored = c.stored
  received : c'.received = min c.stored (c.received + bytes.length)
  kept : entered.flatMap (·.bytes) ++ c'.gathered = c.gathered ++ bytes.take (c.stored - c.received)
  writes : ∀ (i : Nat) (w : PageWrite), entered[i]? = some w → w.Entered c c' i entered.length

/-! ### A cell gathered -/

theorem CurrentCell.gathered_of_complete {c : CurrentCell} (h : c.gatherOk) (hc : c.stored ≤ c.received) :
    c.gathered = [] := by
  have hg := h.2
  rw [if_neg (by omega)] at hg
  exact List.length_eq_zero_iff.mp hg

theorem CurrentCell.gathered_length {c : CurrentCell} (h : c.gatherOk) (hc : c.received < c.stored) :
    c.gathered.length = c.received % 65536 := by
  have hg := h.2
  rwa [if_pos hc] at hg

/-- Room in the page being gathered, up to the stored length. -/
def CurrentCell.room (c : CurrentCell) : Nat := min (65536 - c.gathered.length) (c.stored - c.received)

/-- There is room unless the stored bytes have all come: a full page has been entered. -/
theorem CurrentCell.room_pos {c : CurrentCell} (h : c.gatherOk) : 0 < c.room ↔ c.received < c.stored := by
  unfold CurrentCell.room
  constructor
  · omega
  · intro hc
    have := CurrentCell.gathered_length h hc
    omega

/-- The cell with the bytes of one run that fill its page or complete it. -/
def CurrentCell.paged (c : CurrentCell) : CurrentCell :=
  { c with received := c.received + c.room, gathered := [] }

/-- The page write of one such run. -/
def CurrentCell.pageWrite (c : CurrentCell) (bytes : List Byte) : PageWrite :=
  { frame := c.frame, first := c.first, position := pagesFor (c.received + c.room)
    bytes := c.gathered ++ bytes.take c.room, last := decide (c.stored ≤ c.received + c.room) }

/-! ### The three ends of a run -/

/-- Nothing is taken: none arrived, or the stored bytes have all come. -/
theorem Gathers.nothing {c : CurrentCell} {bytes : List Byte} (h : c.gatherOk)
    (hn : bytes.take c.room = []) : Gathers c bytes c [] := by
  have hle := h.1
  have hcase : bytes = [] ∨ c.stored ≤ c.received := by
    rcases List.take_eq_nil_iff.mp hn with h0 | h0
    · exact .inr (Nat.le_of_not_lt (mt (CurrentCell.room_pos h).mpr (by omega)))
    · exact .inl h0
  refine ⟨h, rfl, rfl, rfl, ?_, ?_, fun i w hw => by simp at hw⟩
  · rcases hcase with rfl | hc
    · exact (Nat.min_eq_right hle).symm
    · omega
  · rcases hcase with rfl | hc
    · simp
    · simp [Nat.sub_eq_zero_of_le hc]

/-- All the bytes are taken, and the page is still short. -/
theorem Gathers.short {c : CurrentCell} {bytes : List Byte} (h : c.gatherOk)
    (hg : c.gathered.length + bytes.length < 65536) (hs : c.received + bytes.length < c.stored) :
    Gathers c bytes
      { c with received := c.received + bytes.length, gathered := c.gathered ++ bytes } [] := by
  have hlen := CurrentCell.gathered_length h (by omega)
  refine ⟨⟨Nat.le_of_lt hs, ?_⟩, rfl, rfl, rfl, ?_, ?_, fun i w hw => by simp at hw⟩
  · rw [if_pos hs, List.length_append]
    change _ = (c.received + bytes.length) % 65536
    omega
  · simp only; omega
  · simp [List.take_of_length_le (show bytes.length ≤ c.stored - c.received by omega)]

/-- With all the stored bytes come, nothing more is entered. -/
theorem Gathers.eq_nil_of_complete {c c' : CurrentCell} {bytes : List Byte} {entered : List PageWrite}
    (h : Gathers c bytes c' entered) (hg : c.gathered = []) (hc : c.stored ≤ c.received) :
    entered = [] := by
  have hk := h.kept
  rw [hg, Nat.sub_eq_zero_of_le hc, List.take_zero, List.append_nil, List.append_eq_nil_iff] at hk
  cases entered with
  | nil => rfl
  | cons w rest =>
    have hw : w.bytes = [] := List.flatMap_eq_nil_iff.mp hk.1 w (List.mem_cons_self ..)
    exact absurd hw (h.writes 0 w rfl).nonempty

/-- A cell with stored bytes to come completes with a page write entered. -/
theorem Gathers.ne_nil_of_completes {c c' : CurrentCell} {bytes : List Byte} {entered : List PageWrite}
    (h : Gathers c bytes c' entered) (hc : c.received < c.stored) (hd : c'.received = c.stored) :
    entered ≠ [] := by
  rintro rfl
  have hg : c'.gathered = [] := CurrentCell.gathered_of_complete h.ok (Nat.le_of_eq (h.stored.trans hd.symm))
  have hk := h.kept
  have hr := h.received
  rw [hg, List.flatMap_nil, List.append_nil, eq_comm, List.append_eq_nil_iff, List.take_eq_nil_iff] at hk
  rcases hk.2 with h0 | rfl
  · omega
  · rw [List.length_nil] at hr; omega

/-- A page is filled or the cell completed, and the rest of the bytes go on from there. -/
theorem Gathers.page {c c' : CurrentCell} {bytes : List Byte} {entered : List PageWrite} (h : c.gatherOk)
    (hr : 0 < c.room) (hb : c.room ≤ bytes.length)
    (hrest : c.paged.gatherOk → Gathers c.paged (bytes.drop c.room) c' entered) :
    Gathers c bytes c' (c.pageWrite bytes :: entered) := by
  have hc : c.received < c.stored := (CurrentCell.room_pos h).mp hr
  have hlen := CurrentCell.gathered_length h hc
  have hroom : c.room = min (65536 - c.gathered.length) (c.stored - c.received) := rfl
  have hok : c.paged.gatherOk := by
    refine ⟨?_, ?_⟩
    · change c.received + c.room ≤ c.stored
      omega
    · change 0 = if c.received + c.room < c.stored then (c.received + c.room) % 65536 else 0
      split <;> omega
  have ih := hrest hok
  have hstored : c.stored - c.received = c.room + (c.stored - (c.received + c.room)) := by omega
  have hreceived : c'.received = min c.stored (c.received + bytes.length) := by
    rw [ih.received, List.length_drop]
    change min c.stored (c.received + c.room + _) = _
    omega
  have hwlen : (c.pageWrite bytes).bytes.length = c.gathered.length + c.room := by
    simp [CurrentCell.pageWrite, hb]
  have hnil : c.stored ≤ c.received + c.room → entered = [] :=
    fun hle => ih.eq_nil_of_complete rfl hle
  refine ⟨ih.ok, ih.frame, ih.first, ih.stored, hreceived, ?_, ?_⟩
  · have hk : entered.flatMap (·.bytes) ++ c'.gathered
        = (bytes.drop c.room).take (c.stored - (c.received + c.room)) := ih.kept
    rw [List.flatMap_cons, List.append_assoc, hk, hstored, List.take_add, ← List.append_assoc]
    rfl
  · rintro (_ | i) w hw
    · obtain rfl : c.pageWrite bytes = w := by simpa using hw
      have hlast : (c.pageWrite bytes).last = true ↔ c.stored ≤ c.received + c.room := by
        simp [CurrentCell.pageWrite]
      refine ⟨rfl, rfl, ?_, ?_, fun hf => ?_, by omega, ?_⟩
      · change (c.received + c.room) / 65536 + (if (c.received + c.room) % 65536 = 0 then 0 else 1) = _
        split <;> omega
      · rw [hlast]
        constructor
        · intro hle
          exact ⟨by omega, by rw [hnil hle]; rfl⟩
        · rintro ⟨hd, hn⟩
          have : entered = [] := by simpa using hn
          exact Nat.le_of_not_lt fun hlt => ih.ne_nil_of_completes hlt hd this
      · have : ¬ c.stored ≤ c.received + c.room := by rw [← hlast, hf]; simp
        omega
      · intro h0
        rw [h0] at hwlen
        simp at hwlen
        omega
    · have hw : entered[i]? = some w := by simpa using hw
      have hmore : ¬ c.stored ≤ c.received + c.room := fun hle => by simp [hnil hle] at hw
      have e := ih.writes i w hw
      refine ⟨e.frame, e.first, ?_, ?_, e.full, e.fits, e.nonempty⟩
      · have : w.position = (c.received + c.room) / 65536 + 1 + i := e.position
        omega
      · have : w.last = true ↔ c'.received = c.stored ∧ i + 1 = entered.length := e.last
        rw [this, List.length_cons]
        omega

/-! ### The gathering of any number of bytes -/

theorem gather_of_nothing {c : CurrentCell} {bytes : List Byte} (fuel : Nat)
    (h : bytes.take c.room = []) : gather (fuel + 1) c bytes = (c, []) := if_pos h

theorem gather_of_short {c : CurrentCell} {bytes : List Byte} (fuel : Nat) (hb : bytes ≠ [])
    (h : bytes.length < c.room) :
    gather (fuel + 1) c bytes =
      ({ c with received := c.received + bytes.length, gathered := c.gathered ++ bytes }, []) := by
  have hroom : c.room = min (65536 - c.gathered.length) (c.stored - c.received) := rfl
  have ht : bytes.take (min (Config.pageBytes - c.gathered.length) (c.stored - c.received)) = bytes :=
    List.take_of_length_le (Nat.le_of_lt h)
  have hmore : ¬ (decide (Config.pageBytes ≤ (c.gathered ++ bytes).length)
      || decide (c.stored ≤ c.received + bytes.length)) = true := by
    simp only [Config.pageBytes, Bool.or_eq_true, decide_eq_true_eq, List.length_append]
    omega
  simp only [gather, ht]
  rw [if_neg hb, if_neg hmore]

theorem gather_of_page {c : CurrentCell} {bytes : List Byte} (fuel : Nat) (hr : 0 < c.room)
    (hb : c.room ≤ bytes.length) :
    gather (fuel + 1) c bytes = ((gather fuel c.paged (bytes.drop c.room)).1,
      c.pageWrite bytes :: (gather fuel c.paged (bytes.drop c.room)).2) := by
  have hroom : c.room = min (Config.pageBytes - c.gathered.length) (c.stored - c.received) := rfl
  have hlen : (bytes.take c.room).length = c.room := List.length_take_of_le hb
  have hsome : bytes.take c.room ≠ [] := List.ne_nil_of_length_pos (by omega)
  have hfull : (decide (Config.pageBytes ≤ (c.gathered ++ bytes.take c.room).length)
      || decide (c.stored ≤ c.received + c.room)) = true := by
    simp only [Bool.or_eq_true, decide_eq_true_eq, List.length_append]
    omega
  simp only [gather, ← hroom, hlen]
  rw [if_neg hsome, if_pos hfull]
  rfl

/-- With fuel for every byte, `gather` gathers them. -/
theorem gather_gathers : ∀ (fuel : Nat) (c : CurrentCell) (bytes : List Byte), c.gatherOk →
    bytes.length < fuel → Gathers c bytes (gather fuel c bytes).1 (gather fuel c bytes).2 := by
  intro fuel
  induction fuel with
  | zero => intro c bytes _ hf; omega
  | succ fuel ih =>
    intro c bytes hok hf
    have hroom : c.room = min (65536 - c.gathered.length) (c.stored - c.received) := rfl
    by_cases hnone : bytes.take c.room = []
    · rw [gather_of_nothing fuel hnone]
      exact .nothing hok hnone
    · obtain ⟨hr, hb⟩ : c.room ≠ 0 ∧ bytes ≠ [] := by simpa [List.take_eq_nil_iff] using hnone
      by_cases hshort : bytes.length < c.room
      · rw [gather_of_short fuel hb hshort]
        exact .short hok (by omega) (by omega)
      · rw [gather_of_page fuel (by omega) (by omega)]
        exact .page hok (by omega) (by omega) fun hpaged => ih _ _ hpaged (by rw [List.length_drop]; omega)

/-- Bytes for a current cell change nothing but it and the write queue (R88). -/
theorem State.takeBytes_of_some {s : State} {c : CurrentCell} (bytes : List Byte)
    (h : s.ingest.current = some c) :
    s.takeBytes bytes = s.setIngest { s.ingest with
      current := some (gather (bytes.length + 1) c bytes).1
      writeQueue := s.ingest.writeQueue ++ (gather (bytes.length + 1) c bytes).2 } := by
  simp only [State.takeBytes, h]

/-! ### The statement -/

/-- Settles O34: the bytes go to the current cell alone, and `gather_gathers` says what comes of them. -/
theorem payloadBytesGathered : Obligations.PayloadBytesGathered := by
  intro s c bytes hp hs hc hok
  have hexec := exec_cellPayloadBytes_of_selects (bytes := bytes) hp hs
  rw [State.takeBytes_of_some bytes hc] at hexec
  have g := gather_gathers (bytes.length + 1) c bytes hok (Nat.lt_succ_self _)
  refine ⟨_, (gather (bytes.length + 1) c bytes).1, (gather (bytes.length + 1) c bytes).2, hexec, rfl, rfl, g.ok,
    g.received, g.kept, fun i w hw => ?_, g.frame, g.first, g.stored, rfl, rfl, rfl, rfl, rfl⟩
  have e := g.writes i w hw
  exact ⟨e.frame, e.first, e.position, e.last, e.full, e.fits⟩

end Sys2Proof.Machine
end

section
/-! SUPPORT. BYPASS (R80, R125): the store at a header, at payload bytes and at a tick, and what a tick's
other work leaves of it and of COVER-AIR; with them O42. -/

namespace Sys2Proof.Machine

/-! ### Headers and payload bytes -/

/-- A back cell that is not complete leaves the store unsent (R125). -/
theorem dropIncomplete_eq (l : List BypassCell) :
    dropIncomplete l = if l.getLast?.any (fun c => !c.complete) then l.dropLast else l := by
  unfold dropIncomplete
  cases l.getLast? with
  | none => rfl
  | some c => cases h : c.complete <;> simp [h]

theorem State.bypassHeader_of_bad {s : State} {h : CellHeader} (hg : h.good = false) :
    s.bypassHeader h = (s.setOutput { s.output with bypass := dropIncomplete s.output.bypass }
      ).setIngestCounters { s.ingest.counters with headerBad := bump s.ingest.counters.headerBad } := by
  simp [State.bypassHeader, hg]

theorem State.bypassHeader_of_lane {s : State} {h : CellHeader} (hg : h.good = true)
    (hl : h.lane ≠ s.cfg.lane) :
    s.bypassHeader h = (s.setOutput { s.output with bypass := dropIncomplete s.output.bypass }
      ).setIngestCounters { s.ingest.counters with wrongLane := bump s.ingest.counters.wrongLane } := by
  simp [State.bypassHeader, hg, hl]

/-- The cell that a header hands to the store (R80). -/
def CellHeader.bypassCell (h : CellHeader) (maxPages : Nat) : BypassCell :=
  { frame := h.frame, lane := BitVec.ofNat 8 h.lane, declared := h.length
    stored := storedLength maxPages h.length, payload := []
    truncated := isTruncated maxPages h.length, complete := decide (storedLength maxPages h.length = 0)
    ready := false }

theorem State.bypassHeader_of_good {s : State} {h : CellHeader} (hg : h.good = true)
    (hl : h.lane = s.cfg.lane) :
    s.bypassHeader h = (s.setOutput { s.output with
        bypass := handBypass (dropIncomplete s.output.bypass) (h.bypassCell s.cfg.cellPages) }
      ).setIngestCounters { s.ingest.counters with
        truncated := if s.cfg.cellPages * 65536 < h.length then bump s.ingest.counters.truncated
          else s.ingest.counters.truncated } := by
  simp only [State.bypassHeader, State.countTruncated_eq]
  rw [if_neg (by simp [hg]), if_neg (not_not_intro hl)]
  rfl

/-- Bytes join the back cell until it is complete; those before it stay as they are (R125). -/
theorem bypassBytes_append : ∀ (front : List BypassCell) (c : BypassCell) (bytes : List Byte),
    bypassBytes (front ++ [c]) bytes = front ++ [if c.complete then c else c.take bytes]
  | [], c, bytes => by
    simp only [List.nil_append, bypassBytes]
    split <;> rfl
  | [d], c, bytes => congrArg (d :: ·) (bypassBytes_append [] c bytes)
  | d :: e :: rest, c, bytes => congrArg (d :: ·) (bypassBytes_append (e :: rest) c bytes)

/-! ### The store at a tick -/

/-- A complete cell becomes ready at a tick. -/
def BypassCell.promote (c : BypassCell) : BypassCell := { c with ready := c.ready || c.complete }

theorem BypassCell.promote_eq (c : BypassCell) :
    (if c.complete then { c with ready := true } else c) = c.promote := by
  obtain ⟨frame, lane, declared, stored, payload, truncated, complete, ready⟩ := c
  cases complete <;> simp [BypassCell.promote]

/-- With no cell ready none is taken. -/
theorem takeReady_of_none : ∀ {l : List BypassCell}, l.all (fun y => !y.ready) = true →
    takeReady l = (none, l)
  | [], _ => rfl
  | c :: rest, h => by
    obtain ⟨hc, hrest⟩ : c.ready = false ∧ rest.all (fun y => !y.ready) = true := by simpa using h
    simp [takeReady, hc, takeReady_of_none hrest]

/-- The first ready cell is the one taken. -/
theorem takeReady_of_first {x : BypassCell} {b : List BypassCell} (hx : x.ready = true) :
    ∀ {a : List BypassCell}, a.all (fun y => !y.ready) = true →
      takeReady (a ++ x :: b) = (some x, a ++ b)
  | [], _ => by simp [takeReady, hx]
  | c :: rest, h => by
    obtain ⟨hc, hrest⟩ : c.ready = false ∧ rest.all (fun y => !y.ready) = true := by simpa using h
    simp [takeReady, hc, takeReady_of_first hx hrest]

/-- The cell sent at a BYPASS tick (R125). -/
def State.bypassCell (s : State) (h : FrameNo) : OutputCell :=
  match (takeReady s.output.bypass).1 with
  | some c => bypassOutput c
  | none => bypassMissing s.laneByte h

/-- The output stage after a BYPASS tick (R125). -/
theorem State.bypassTick_output (s : State) (h : FrameNo) :
    (s.bypassTick h).output = { s.output with
      link := s.output.link ++ [s.bypassCell h]
      counters := s.output.counters.countSent (s.bypassCell h).flags
      bypass := (takeReady s.output.bypass).2.map BypassCell.promote } := by
  have hp : (fun c : BypassCell => if c.complete then { c with ready := true } else c)
      = BypassCell.promote := funext BypassCell.promote_eq
  simp only [State.bypassTick, hp]
  rfl

/-- What a BYPASS tick does at the output stage depends on that stage and the settings alone. -/
theorem State.bypassTick_output_congr {s t : State} (h : FrameNo) (ho : t.output = s.output)
    (hu : t.startup = s.startup) : (t.bypassTick h).output = (s.bypassTick h).output := by
  simp only [State.bypassTick_output, State.bypassCell, State.laneByte, State.cfg, ho, hu]

/-! ### The tallies, which only a tick's own work sets -/

section
variable (s : State)

@[simp] theorem State.ownerOfDiscard_tallies (msg : CueMsg) :
    (s.ownerOfDiscard msg).panel.tallies = s.panel.tallies := by
  cases msg with
  | markOpen m =>
    simp only [State.ownerOfDiscard]
    split <;> rfl
  | _ => rfl

@[simp] theorem State.offer_tallies (msg : CueMsg) (target : StationId) :
    (s.offer msg target).1.panel.tallies = s.panel.tallies := by
  have f := s.offerRaw_frame msg target
  rcases h : s.offerRaw msg target with ⟨t, ok, d⟩
  rw [h] at f
  cases d <;> simp at f <;> simp [State.offer, h, f]

/-- The state that an offer leaves, by the offer's answer. -/
theorem State.offer_tallies_of_eq {s t : State} {msg : CueMsg} {target : StationId} {ok : Bool}
    (h : s.offer msg target = (t, ok)) : t.panel.tallies = s.panel.tallies := by
  rw [← s.offer_tallies msg target, h]

@[simp] theorem State.resendHello_tallies : s.resendHello.panel.tallies = s.panel.tallies := by
  unfold State.resendHello
  split
  · split
    case h_1 t e => simp [State.offer_tallies_of_eq e]
    case h_2 t e => exact State.offer_tallies_of_eq e
  · rfl

@[simp] theorem State.beaconTick_tallies (h : FrameNo) :
    (s.beaconTick h).panel.tallies = s.panel.tallies := by
  unfold State.beaconTick
  split
  · rw [State.resendHello_tallies, State.offer_tallies]
  · rfl

@[simp] theorem State.setOpenKey_tallies (kind : MarkKind) (key : Option MarkKey) :
    (s.setOpenKey kind key).panel.tallies = s.panel.tallies := by
  cases kind <;> rfl

@[simp] theorem State.offerPress_tallies (kind : MarkKind) (start : FrameNo) (fin : Option FrameNo) :
    (s.offerPress kind start fin).panel.tallies = s.panel.tallies := by
  unfold State.offerPress
  extract_lets seq o
  split
  case h_1 t e => simp [State.offer_tallies_of_eq e]
  case h_2 t e => simp [State.offer_tallies_of_eq e]

@[simp] theorem State.pressMark_tallies (kind : MarkKind) (h : FrameNo) :
    (s.pressMark kind h).panel.tallies = s.panel.tallies := by
  simp only [State.pressMark]
  repeat' split
  all_goals simp

@[simp] theorem State.releaseMark_tallies (kind : MarkKind) (h : FrameNo) :
    (s.releaseMark kind h).panel.tallies = s.panel.tallies := by
  unfold State.releaseMark
  split
  · rfl
  · split
    case h_1 t e => simp [State.offer_tallies_of_eq e]
    case h_2 t e => simp [State.offer_tallies_of_eq e]

@[simp] theorem State.pressSession_tallies (kind : SessionKind) (h : FrameNo) :
    (s.pressSession kind h).panel.tallies = s.panel.tallies := by
  unfold State.pressSession
  split
  · rfl
  · split
    · split
      case h_1 t e => exact State.offer_tallies_of_eq e
      case h_2 t e => simp [State.offer_tallies_of_eq e]
    · simp

theorem State.onEvent_tallies (found : Bool) {work : State → State}
    (hw : ∀ t, (work t).panel.tallies = t.panel.tallies) :
    (s.onEvent found work).panel.tallies = s.panel.tallies := by
  cases found with
  | false => rfl
  | true => exact hw s

@[simp] theorem State.samplePanel_tallies (h : FrameNo) (now : PanelLevels) :
    (s.samplePanel h now).panel.tallies = s.panel.tallies := by
  unfold State.samplePanel
  split
  · rfl
  · simp [State.onEvent_tallies]

end

/-! ### A tick in BYPASS -/

/-- In BYPASS a due session entry is ignored (R67). -/
theorem State.takeSession_of_bypass {s : State} (h : FrameNo) (x : SessionEntry)
    (hs : s.line.service = .bypass) : State.takeSession h s x = s.sessionIgnored := by
  cases hk : x.kind <;> simp only [State.takeSession, hk, hs]

/-- In BYPASS the entries due leave the delay line but for its list (R67). -/
theorem State.takeSessions_line_of_bypass {s : State} (h : FrameNo) (hs : s.line.service = .bypass) :
    (s.takeSessions h).line
      = { s.line with sessions := s.line.sessions.filter (fun x => !decide (x.action = h)) } := by
  have hfold : ∀ (l : List SessionEntry) (t : State), t.line.service = .bypass →
      (l.foldl (State.takeSession h) t).line = t.line := by
    intro l
    induction l with
    | nil => intro t _; rfl
    | cons x rest ih =>
      intro t ht
      rw [List.foldl_cons, State.takeSession_of_bypass h x ht]
      exact ih t.sessionIgnored ht
  exact hfold _ (s.setLine _) hs

/-- A tick's work in BYPASS: the output stage's, COVER-AIR off, and at the delay line the session list
alone. -/
theorem State.tickWork_of_bypass {s : State} (h : FrameNo) (levels : PanelLevels)
    (hs : s.line.service = .bypass) :
    (s.tickWork h levels).output = (s.bypassTick h).output
      ∧ (s.tickWork h levels).panel.tallies.coverAir = false
      ∧ (s.tickWork h levels).line.service = .bypass
      ∧ (s.tickWork h levels).line.emit = s.line.emit := by
  have hline := State.takeSessions_line_of_bypass h hs
  have hstate : (s.takeSessions h).tickState h
      = (((s.takeSessions h).setCoverAir false).bypassTick h).beaconTick h := by
    simp only [State.tickState, hline, hs]
  simp only [State.tickWork, hstate]
  refine ⟨?_, ?_, ?_, ?_⟩
  · simp only [State.setTallies_output, State.ageRoster_frame, State.samplePanel_frame,
      State.beaconTick_frame]
    exact State.bypassTick_output_congr h (by simp) (by simp)
  · simp [State.setTallies, State.setCoverAir]
  · simp [hline, hs]
  · simp [hline]

/-- A tick taken in BYPASS. -/
theorem State.tick_of_bypass {s : State} (h : FrameNo) (levels : PanelLevels)
    (hs : s.line.service = .bypass) :
    (s.tick h levels).output = (s.bypassTick h).output
      ∧ (s.tick h levels).panel.tallies.coverAir = false
      ∧ (s.tick h levels).line.service = .bypass
      ∧ (s.tick h levels).line.emit = s.line.emit := by
  have hw := State.tickWork_of_bypass (s := s.takeTick h) h levels (by simp [hs])
  rwa [State.bypassTick_output_congr (s := s) h (by simp) (by simp), (s.takeTick_frame h).1] at hw

/-! ### The commands that make a tick -/

/-- A count is the first that the clock takes, or the next after its tick number (R2, R3, R6). -/
def ProgramClock.takesNext (x : ProgramClock) (n : FrameNo) : Prop :=
  x.ref ≠ .searching → ∀ m, x.tick = some m → n = m + 1

/-- A reference pulse makes a tick when it is taken, and its count is one that the clock takes. -/
theorem State.tickMade_referencePulse {s : State} {n h : FrameNo} {levels : PanelLevels}
    (hm : s.tickMade (.referencePulse n levels) = some h) :
    s.startup.phase ≠ .held ∧ n = h ∧ s.clock.takesNext n := by
  simp only [State.tickMade] at hm
  split at hm
  · cases hm
  · rename_i hp
    split at hm
    case h_1 href => exact ⟨hp, Option.some.inj hm, fun hne => absurd href hne⟩
    case h_2 htick _ =>
      refine ⟨hp, Option.some.inj hm, fun _ m hsome => ?_⟩
      rw [htick] at hsome
      cases hsome
    case h_3 m href htick | h_4 m href htick =>
      split at hm
      · rename_i hn
        refine ⟨hp, Option.some.inj hm, fun _ k hsome => ?_⟩
        rw [htick] at hsome
        cases hsome
        exact hn
      · cases hm

/-- A pulse whose count the clock takes makes that tick (R2, R3, R6). -/
theorem execReferencePulse_of_next {s : State} {n : FrameNo} {levels : PanelLevels}
    (hp : s.startup.phase ≠ .held) (hn : s.clock.takesNext n) :
    execReferencePulse n levels s = .next ((s.setClock { s.clock with
      ref := .locked, holdover := false, own := none, absence := s.absenceStart }).tick n levels) := by
  simp only [execReferencePulse, if_neg hp]
  split
  case h_1 | h_2 => rfl
  case h_3 m href htick =>
    have hnext : n = m + 1 := hn (by rw [href]; decide) m htick
    rw [if_pos hnext]
  case h_4 m href htick =>
    have hnext : n = m + 1 := hn (by rw [href]; decide) m htick
    have hne : n ≠ m := by bv_omega
    rw [if_neg hne, if_pos hnext]

/-- A command that makes a tick takes it in a state that differs in the program clock alone, and leaves
the output stage, the panel and the delay line as the tick does (R2 to R6). -/
theorem exec_of_tickMade {s : State} {c : Instr} {h : FrameNo} (hm : s.tickMade c = some h) :
    ∃ k levels t, exec c s = .next t ∧ t.output = ((s.setClock k).tick h levels).output
      ∧ t.panel = ((s.setClock k).tick h levels).panel
      ∧ t.line = ((s.setClock k).tick h levels).line := by
  cases c with
  | referencePulse n levels =>
    obtain ⟨hp, rfl, hn⟩ := State.tickMade_referencePulse hm
    exact ⟨_, _, _, execReferencePulse_of_next hp hn, rfl, rfl, rfl⟩
  | absenceTimerExpiry levels =>
    change ∃ k l t, execAbsenceTimerExpiry levels s = .next t ∧ _
    simp only [State.tickMade] at hm
    split at hm
    · rename_i href habs htick
      cases hm
      simp only [execAbsenceTimerExpiry, href, habs, htick]
      exact ⟨_, _, _, rfl, rfl, rfl, rfl⟩
    · cases hm
  | ownTickTimerExpiry levels =>
    change ∃ k l t, execOwnTickTimerExpiry levels s = .next t ∧ _
    simp only [State.tickMade] at hm
    split at hm
    · rename_i href hown htick
      cases hm
      simp only [execOwnTickTimerExpiry, href, hown, htick]
      exact ⟨_, _, _, rfl, rfl, rfl, rfl⟩
    · cases hm
  | _ => cases hm

/-! ### The statement -/

/-- Settles O42: the header's and the bytes' parts are the model's own case distinctions; a tick's other
work leaves the output stage and COVER-AIR as the BYPASS tick sets them. -/
theorem bypassPassesCells : Obligations.BypassPassesCells := by
  intro s hp hs
  refine ⟨fun header => ?_, fun bytes front c hl => ?_, fun c h hm => ?_⟩
  · intro b l kept u k stored cut
    rw [exec_cellHeaderArrival_of_bypass hp hs]
    have hkept : dropIncomplete s.output.bypass = kept := dropIncomplete_eq l
    have hcut : (if cut then bump k.truncated else k.truncated)
        = if s.cfg.cellPages * 65536 < b.length then bump k.truncated else k.truncated :=
      by simp only [cut, decide_eq_true_eq]
    rw [hcut]
    by_cases hbad : b.good = false
    · rw [if_pos hbad, State.bypassHeader_of_bad hbad, hkept]
      rfl
    · have hgood : b.good = true := by simpa using hbad
      rw [if_neg hbad]
      by_cases hlane : b.lane = s.cfg.lane
      · rw [if_neg (not_not_intro hlane), State.bypassHeader_of_good hgood hlane, hkept]
        rfl
      · rw [if_pos hlane, State.bypassHeader_of_lane hgood hlane, hkept]
        rfl
  · intro payload
    rw [exec_cellPayloadBytes_of_bypass hp hs, hl, bypassBytes_append]
    split
    · rw [← hl]
      rfl
    · rfl
  · intro promote
    obtain ⟨k, levels, t, hexec, hout, hpanel, hline⟩ := exec_of_tickMade hm
    obtain ⟨htick, hcover, hservice, hemit⟩ :=
      State.tick_of_bypass (s := s.setClock k) h levels hs
    have hoff : t.output = { s.output with
        link := s.output.link ++ [s.bypassCell h]
        counters := s.output.counters.countSent (s.bypassCell h).flags
        bypass := (takeReady s.output.bypass).2.map promote } := by
      rw [hout, htick, State.bypassTick_output]
      rfl
    refine ⟨t, s.bypassCell h, hexec, by rw [hoff], by rw [hpanel, hcover], by rw [hline, hservice],
      by rw [hline, hemit]; rfl, fun a x b hl ha hx => ?_, fun hn => ?_⟩
    · have hcell : s.bypassCell h = bypassOutput x := by
        rw [State.bypassCell, hl, takeReady_of_first hx ha]
      refine ⟨hcell, ?_, ?_⟩
      · rw [hoff, hl, takeReady_of_first hx ha]
      · rw [hoff, hcell]
        rfl
    · have hcell : s.bypassCell h = bypassMissing s.laneByte h := by
        rw [State.bypassCell, takeReady_of_none hn]
      refine ⟨hcell, ?_, ?_⟩
      · rw [hoff, takeReady_of_none hn]
      · rw [hoff, hcell]
        rfl

end Sys2Proof.Machine
end
